-- ==== Sys2Proof/Word.lean ====
section
/-! DEFINITION. The word types of the BitSampler (spec 00 R4, R5): one line level, and the widths of its registers. -/

namespace Sys2Proof

/-- One line level or one-bit register (spec 10 R24, R26, R29, R30). -/
abbrev Bit := BitVec 1

/-- The accumulator's width, 24 bits (spec 00 R5). -/
abbrev Acc := BitVec 24

/-- The result value's width, 32 bits (spec 00 R5). -/
abbrev Value := BitVec 32

end Sys2Proof
end

