-- ==== Sys2Proof/Machine/Flags.lean ====
section
/-! DEFINITION. The majority filter's two functions (spec 41 R110 to R112) and the result's noisy flag (spec 10 R33). -/

namespace Sys2Proof.Machine

/-- `s1 + s2 + s3`, an integer sum from 0 to 3 (spec 00 R6). -/
def sampleSum (s1 s2 s3 : Bit) : Nat := s1.toNat + s2.toNat + s3.toNat

/-- `maj3` (spec 41 R110): 1 when the sum is at least 2. -/
def maj3 (s1 s2 s3 : Bit) : Bit :=
  if 2 ≤ sampleSum s1 s2 s3 then 1#1 else 0#1

/-- `noisy3` (spec 41 R111): 1 when the sum is 1 or 2. -/
def noisy3 (s1 s2 s3 : Bit) : Bit :=
  if sampleSum s1 s2 s3 = 1 ∨ sampleSum s1 s2 s3 = 2 then 1#1 else 0#1

/-- `had_noisy_bits`: `if NCNT > 0 then 1 else 0` (spec 10 R33, 42 R138). -/
def noisyFlag (ncnt : BitVec 5) : Bit :=
  if 0 < ncnt.toNat then 1#1 else 0#1

/-- The noisy-bit counter after one vote (spec 10 R27, 41 R114), a 5-bit add. -/
def countNoisy (ncnt : BitVec 5) (s1 s2 s3 : Bit) : BitVec 5 :=
  if noisy3 s1 s2 s3 = 1#1 then ncnt + 1#5 else ncnt

end Sys2Proof.Machine
end

