-- ==== Sys2Proof/Config.lean ====
section
/-! DEFINITION. What an instance of the BitSampler fixes (spec 00 R3), and the free values: opaque constants with no body. -/

namespace Sys2Proof

/-- The parameters of an instance that the block's rules read (spec 00 R3): `T_S`, `T_L` in time units and the time
unit `TU` in microseconds. State carries them as plain data and no step changes them (DESIGN CHOICE, safe: log entry 7).
That they are whole numbers is the model's choice too (DESIGN CHOICE, unsafe: log entry 23), and so is that any three are
admitted, `T_S` above `T_L` and 0 among them (DESIGN CHOICE, safe: log entry 25). -/
structure Params where
  /-- `T_S`, the wait before each sample, in TU. -/
  tS : Nat
  /-- `T_L`, the wait after a falling edge and after each gain-pulse edge, in TU. -/
  tL : Nat
  /-- `TU`, the time unit, in microseconds. -/
  tu : Nat
  deriving DecidableEq, Repr

/-- The defaults of spec 00 R3: `T_S` = 1, `T_L` = 3, `TU` = 1 microsecond. -/
def Params.default : Params := ⟨1, 3, 1⟩

/-- The byte-lane orders the model allows a bus wrapper. The spec leaves `BUS_BYTE_ORDER` OPEN and gives it no range
(20 R62): that it is one of these two is the model's choice. DESIGN CHOICE, unsafe: log entry 24. -/
inductive ByteOrder where
  | littleEndian
  | bigEndian
  deriving DecidableEq, Repr, Inhabited

/-- `T_OVERRUN_MAX`, OPEN (spec 00 R3, D4). Its value is free (safe: log entry 8); that it is a whole number of TU is the
model's choice, the spec giving it no unit and no range (DESIGN CHOICE, unsafe: log entry 23). -/
opaque Config.tOverrunMax : Nat

/-- `CHIP_T_LOW_MIN`, OPEN (spec 00 R3, 70 R191). Its value is free (safe: log entry 8); that it is a whole number of TU is
the model's choice, the spec giving it no unit and no range (DESIGN CHOICE, unsafe: log entry 23). -/
opaque Config.chipTLowMin : Nat

/-- `CHIP_T_TIMEOUT`, OPEN (spec 00 R3, 70 R191). Its value is free (safe: log entry 8); that it is a whole number of TU is
the model's choice, the spec giving it no unit and no range (DESIGN CHOICE, unsafe: log entry 23). -/
opaque Config.chipTTimeout : Nat

/-- `BUS_BYTE_ORDER`, OPEN (spec 00 R3, 20 R62). Which of the two orders it is stays free (safe: log entry 8); that there are
only two is the model's choice (DESIGN CHOICE, unsafe: log entry 24). -/
opaque Config.busByteOrder : ByteOrder

/-- The level of DATA at the n-th free draw (spec 20 R53: every DATA read is a free draw). Safe (log entry 1). -/
opaque Config.freeData : Nat → BitVec 1

/-- The level of `rst` at the n-th free draw of the environment (spec 60 R170). Safe (log entry 1). -/
opaque Config.freeRst : Nat → BitVec 1

/-- The level of `cfg_gain` at the n-th free draw of the environment (spec 60 R170). Safe (log entry 1). -/
opaque Config.freeCfgGain : Nat → BitVec 2

/-- The level of `cmd_valid` at the n-th free draw of the environment (spec 60 R170). Safe (log entry 1). -/
opaque Config.freeCmdValid : Nat → BitVec 1

/-- The level of `cmd_discard` at the n-th free draw of the environment (spec 60 R170). Safe (log entry 1). -/
opaque Config.freeCmdDiscard : Nat → BitVec 1

/-- What VOTE leaves in ACC when the window index is 24 to 31, applied to the index, the vote and ACC: the spec states no
bit position there (30 R76, R87). DESIGN CHOICE, safe: log entry 12. -/
opaque Config.voteBeyondLastWindow : BitVec 5 → BitVec 1 → BitVec 24 → BitVec 24

end Sys2Proof
end

