-- ==== Sys2Proof/Machine/Operands.lean ====
section
/-! DEFINITION. The two assembled operands of the block: the accumulator's bit position (spec 30 R76) and the sign
extension (spec 42 R136). -/

namespace Sys2Proof.Machine

/-- The accumulator bit that window `i` writes, `23 - I` (spec 10 R21, 30 R76). Meant for `i` from 0 to 23. -/
def windowBit (i : BitVec 5) : Nat := 23 - i.toNat

/-- `ACC | (zext_24(m) << (23 - I))` (spec 41 R114). For a window index from 24 to 31, which no run reaches, the spec
states no bit position (30 R76, R87), and what ACC holds then is a free value (log entry 12). -/
def setWindowBit (acc : Acc) (i : BitVec 5) (m : Bit) : Acc :=
  if i.toNat ≤ 23 then acc ||| (m.zeroExtend 24 <<< windowBit i)
  else Config.voteBeyondLastWindow i m acc

/-- `sext_32` (spec 42 R136). -/
def sext32 (a : Acc) : Value :=
  if a.getLsbD 23 then a.zeroExtend 32 ||| 0xFF000000#32 else a.zeroExtend 32

end Sys2Proof.Machine
end

