-- ==== Sys2Proof/Syntax.lean ====
section
/-! DEFINITION. The instructions of spec/opcode_table.json, whole: two commands (format CMD) and sixteen phase
micro-operations (format PHASE). None has an operand (spec 30 R71). -/

namespace Sys2Proof

/-- One constructor per row of the opcode table (spec 30 R70, R80). -/
inductive Instr where
  /-- READ, CMD 0 (spec 40 R92). -/
  | read
  /-- SETUP, CMD 1 (spec 40 R93). -/
  | setup
  /-- IDLE, PHASE 0x0 (spec 40 R91). -/
  | idle
  /-- CHECK, PHASE 0x1 (spec 41 R101). -/
  | check
  /-- CS_ON, PHASE 0x2 (spec 41 R102). -/
  | csOn
  /-- RISE, PHASE 0x3 (spec 41 R103). -/
  | rise
  /-- WAIT_S, PHASE 0x4 (spec 41 R104). -/
  | waitS
  /-- SAMPLE, PHASE 0x5 (spec 41 R105). -/
  | sample
  /-- VOTE, PHASE 0x6 (spec 41 R114). -/
  | vote
  /-- FALL, PHASE 0x7 (spec 41 R115). -/
  | fall
  /-- WAIT_L, PHASE 0x8 (spec 41 R116). -/
  | waitL
  /-- G_RISE, PHASE 0x9 (spec 42 R130). -/
  | gRise
  /-- G_WAIT_H, PHASE 0xA (spec 42 R131). -/
  | gWaitH
  /-- G_FALL, PHASE 0xB (spec 42 R132). -/
  | gFall
  /-- CS_OFF, PHASE 0xC (spec 42 R133). -/
  | csOff
  /-- G_WAIT_L, PHASE 0xD (spec 42 R134). -/
  | gWaitL
  /-- SEXT, PHASE 0xE (spec 42 R137). -/
  | sext
  /-- COMPLETE, PHASE 0xF (spec 42 R138). -/
  | complete
  deriving DecidableEq, Repr

/-- The two instruction formats, each of one fixed width (spec 30 R88). -/
inductive Format where
  /-- CMD, 1 bit, on the command port (spec 30 R70). -/
  | cmd
  /-- PHASE, 4 bits, in the sequencing register (spec 30 R80). -/
  | phase
  deriving DecidableEq, Repr

/-- A code as the hardware holds it: the command word on `cmd_discard`, or the content of `PHASE`. -/
inductive Code where
  | cmd (w : BitVec 1)
  | phase (w : BitVec 4)
  deriving DecidableEq, Repr

/-- Raw bits with a stated width, before anything is known of them: the decoder is total on these. -/
structure RawWord where
  nbits : Nat
  value : Nat
  deriving DecidableEq, Repr

end Sys2Proof
end

