-- ==== Sys2Proof/WellFormed.lean ====
section
/-! DEFINITION. The well-formedness checks: raw words against the two formats (spec 30 R88), and the gain of an instance
(spec 30 R75). An instruction has no field that could be ill formed (spec 30 R71, R72, R81). -/

namespace Sys2Proof

/-- The width of a format in bits (spec 30 R88). -/
def Format.width : Format → Nat
  | .cmd => 1
  | .phase => 4

/-- The format that has a given width, if any (spec 30 R88: CMD 1 bit, PHASE 4 bits, nothing else). -/
def Format.ofWidth (n : Nat) : Option Format :=
  if n = 1 then some .cmd else if n = 4 then some .phase else none

/-- A raw word is well formed when its width is that of a format and its value fits (spec 30 R88). -/
def RawWord.wellFormed (r : RawWord) : Bool :=
  (r.nbits == 1 || r.nbits == 4) && decide (r.value < 2 ^ r.nbits)

/-- A gain setting is well formed when it is 1, 2 or 3 (spec 30 R74, R75). -/
def gainWellFormed (gain : BitVec 2) : Bool := gain != 0#2

/-- Every instruction is well formed: it carries no operand (spec 30 R71) and no encoding is reserved (R72, R81). -/
def Instr.wellFormed (_ : Instr) : Bool := true

end Sys2Proof
end

