-- ==== Sys2Proof/Decode.lean ====
section
/-! DEFINITION. The codes of spec 30, the decoder (total, rejecting by name) and the encoder. -/

namespace Sys2Proof

/-! ## Phase codes (spec 30 R80)

simp unfolds them to their bits, so that two codes are told apart by evaluation. -/

@[simp] abbrev PhaseCode.idle : BitVec 4 := 0x0#4
@[simp] abbrev PhaseCode.check : BitVec 4 := 0x1#4
@[simp] abbrev PhaseCode.csOn : BitVec 4 := 0x2#4
@[simp] abbrev PhaseCode.rise : BitVec 4 := 0x3#4
@[simp] abbrev PhaseCode.waitS : BitVec 4 := 0x4#4
@[simp] abbrev PhaseCode.sample : BitVec 4 := 0x5#4
@[simp] abbrev PhaseCode.vote : BitVec 4 := 0x6#4
@[simp] abbrev PhaseCode.fall : BitVec 4 := 0x7#4
@[simp] abbrev PhaseCode.waitL : BitVec 4 := 0x8#4
@[simp] abbrev PhaseCode.gRise : BitVec 4 := 0x9#4
@[simp] abbrev PhaseCode.gWaitH : BitVec 4 := 0xA#4
@[simp] abbrev PhaseCode.gFall : BitVec 4 := 0xB#4
@[simp] abbrev PhaseCode.csOff : BitVec 4 := 0xC#4
@[simp] abbrev PhaseCode.gWaitL : BitVec 4 := 0xD#4
@[simp] abbrev PhaseCode.sext : BitVec 4 := 0xE#4
@[simp] abbrev PhaseCode.complete : BitVec 4 := 0xF#4

/-! ## Result status codes (spec 30 R85) -/

@[simp] abbrev StatusCode.none : BitVec 2 := 0b00#2
@[simp] abbrev StatusCode.notReady : BitVec 2 := 0b01#2
@[simp] abbrev StatusCode.sample : BitVec 2 := 0b10#2

/-- The number of gain pulses a gain field stands for, an unsigned count (spec 30 R74). -/
def gainPulses (gain : BitVec 2) : Nat := gain.toNat

/-! ## The decoder -/

/-- Why raw bits are no instruction (spec 30 R88: widths are fixed; no encoding of a right width is reserved, R72, R81). -/
inductive DecodeReject where
  /-- No format has this width. -/
  | noFormatOfWidth (nbits : Nat)
  /-- The value does not fit its width. -/
  | valueTooWide (nbits value : Nat)
  deriving DecidableEq, Repr

/-- The command word (spec 30 R70, R72): 0 is READ, 1 is SETUP. -/
def decodeCmd (w : BitVec 1) : Instr :=
  if w = 0#1 then .read else .setup

/-- The phase code (spec 30 R80, R81). The last arm is 0xF, the only value left. -/
def decodePhase (w : BitVec 4) : Instr :=
  match w.toNat with
  | 0x0 => .idle
  | 0x1 => .check
  | 0x2 => .csOn
  | 0x3 => .rise
  | 0x4 => .waitS
  | 0x5 => .sample
  | 0x6 => .vote
  | 0x7 => .fall
  | 0x8 => .waitL
  | 0x9 => .gRise
  | 0xA => .gWaitH
  | 0xB => .gFall
  | 0xC => .csOff
  | 0xD => .gWaitL
  | 0xE => .sext
  | _ => .complete

/-- Every code is an instruction (spec 30 R72, R81). -/
def decode : Code → Instr
  | .cmd w => decodeCmd w
  | .phase w => decodePhase w

/-- Raw bits to an instruction, or a rejection by name. -/
def decodeRaw (r : RawWord) : Except DecodeReject Instr :=
  match Format.ofWidth r.nbits with
  | none => .error (.noFormatOfWidth r.nbits)
  | some .cmd =>
    if r.value < 2 then .ok (decodeCmd (BitVec.ofNat 1 r.value)) else .error (.valueTooWide r.nbits r.value)
  | some .phase =>
    if r.value < 16 then .ok (decodePhase (BitVec.ofNat 4 r.value)) else .error (.valueTooWide r.nbits r.value)

/-- Is a word of the opcode table, counted as `nbits` bits, of the format CMD? The table's CMD rows have 1 bit and its
PHASE rows 4; counted in whole bytes both have 8 and their low bits overlap, and then the word is read as a phase code.
DESIGN CHOICE, safe: log entry 11. -/
def tableWordIsCmd (nbits : Nat) : Bool := decide (nbits ≤ 1)

/-- The raw word of an opcode-table word. -/
def tableRaw (nbits w : Nat) : RawWord :=
  if tableWordIsCmd nbits then ⟨1, w⟩ else ⟨4, w⟩

/-- The instruction the decoder reads from a word numbered as the opcode table numbers it (log entry 11). -/
def decodeTableWord (nbits w : Nat) : Option Instr :=
  match decodeRaw (tableRaw nbits w) with
  | .ok i => some i
  | .error _ => none

/-! ## The encoder -/

/-- The code of an instruction, from the tables of spec 30 R70 and R80. -/
def encode : Instr → Code
  | .read => .cmd 0#1
  | .setup => .cmd 1#1
  | .idle => .phase 0x0#4
  | .check => .phase 0x1#4
  | .csOn => .phase 0x2#4
  | .rise => .phase 0x3#4
  | .waitS => .phase 0x4#4
  | .sample => .phase 0x5#4
  | .vote => .phase 0x6#4
  | .fall => .phase 0x7#4
  | .waitL => .phase 0x8#4
  | .gRise => .phase 0x9#4
  | .gWaitH => .phase 0xA#4
  | .gFall => .phase 0xB#4
  | .csOff => .phase 0xC#4
  | .gWaitL => .phase 0xD#4
  | .sext => .phase 0xE#4
  | .complete => .phase 0xF#4

/-- A code as raw bits. -/
def Code.raw : Code → RawWord
  | .cmd w => ⟨1, w.toNat⟩
  | .phase w => ⟨4, w.toNat⟩

/-- The format of a code. -/
def Code.format : Code → Format
  | .cmd _ => .cmd
  | .phase _ => .phase

end Sys2Proof
end

