-- ==== Sys2Proof/Machine/State.lean ====
section
/-! DEFINITION. The state of the machine as plain data: every element of spec 10, the event trace of spec 20 R50, the input
ports of spec 10 R37, and the model's own stream of environment moves. The block has no memory (spec 20 R60). -/

namespace Sys2Proof.Machine

/-- The events of spec 20 R50. -/
inductive Event where
  /-- A command with `cmd_discard = d` was accepted. -/
  | accept (d : BitVec 1)
  /-- The readiness read of DATA returned `v`. -/
  | ready (v : BitVec 1)
  /-- `cs_active` became `v`. -/
  | csSet (v : BitVec 1)
  /-- CLK was driven to `v`. -/
  | clkSet (v : BitVec 1)
  /-- A busy wait of nominal length `n` TU. -/
  | wait (n : Nat)
  /-- Sample `j` of bit window `i` read DATA as `v`. -/
  | sample (i : BitVec 5) (j : BitVec 2) (v : BitVec 1)
  /-- The result registers were written with these values. -/
  | result (status : BitVec 2) (value : BitVec 32) (noisy : BitVec 1) (ncnt : BitVec 5) (discard : BitVec 1)
  /-- The block was reset. -/
  | reset
  deriving DecidableEq, Repr

/-- The levels of the input ports of spec 10 R37 during one step. -/
structure PortInputs where
  /-- `rst` -/
  rst : BitVec 1
  /-- `cfg_gain` -/
  cfgGain : BitVec 2
  /-- `cmd_valid` -/
  cmdValid : BitVec 1
  /-- `cmd_discard` -/
  cmdDiscard : BitVec 1
  /-- `data_in`, the DATA line -/
  dataIn : BitVec 1
  deriving DecidableEq, Repr

/-- The state. Names follow spec 10; `inp`, `script` and `tick` are the environment's (log entry 1). -/
structure State where
  /-- the instance's `T_S`, `T_L`, `TU` (00 R3; log entry 7) -/
  params : Params
  /-- `GAIN` (10 R19) -/
  gain : BitVec 2
  /-- `PHASE[3:0]` (10 R20) -/
  phase : BitVec 4
  /-- `I[4:0]` (10 R21) -/
  i : BitVec 5
  /-- `J[1:0]` (10 R22) -/
  j : BitVec 2
  /-- `G[1:0]` (10 R23) -/
  g : BitVec 2
  /-- `DISC` (10 R24) -/
  disc : BitVec 1
  /-- `ACC[23:0]` (10 R25) -/
  acc : BitVec 24
  /-- `S1` (10 R26) -/
  s1 : BitVec 1
  /-- `S2` (10 R26) -/
  s2 : BitVec 1
  /-- `S3` (10 R26) -/
  s3 : BitVec 1
  /-- `NCNT[4:0]` (10 R27) -/
  ncnt : BitVec 5
  /-- `VAL[31:0]` (10 R28) -/
  val : BitVec 32
  /-- `CLK` (10 R29) -/
  clk : BitVec 1
  /-- `CS` (10 R30) -/
  cs : BitVec 1
  /-- `RES_STATUS[1:0]` (10 R31) -/
  resStatus : BitVec 2
  /-- `RES_VALUE[31:0]` (10 R32) -/
  resValue : BitVec 32
  /-- `RES_NOISY` (10 R33) -/
  resNoisy : BitVec 1
  /-- `RES_NCNT[4:0]` (10 R34) -/
  resNcnt : BitVec 5
  /-- `RES_DISCARD` (10 R35) -/
  resDiscard : BitVec 1
  /-- the event trace, oldest first (20 R50) -/
  trace : List Event
  /-- the input ports during the next step (10 R37) -/
  inp : PortInputs
  /-- what the environment drives at the coming step boundaries, before its free draws (log entry 1) -/
  script : List PortInputs
  /-- how many free draws the environment has made (log entry 1) -/
  tick : Nat
  deriving DecidableEq, Repr

/-- The faults. No step of the block faults (spec 60 R160, R173). -/
inductive Fault where
  /-- Raised by a bus read of the result ports (`readResults`) that sees `RES_STATUS = 0b11`: the block is broken
  (spec 30 R86, I12). Safe: no rule writes 0b11. -/
  | brokenStatus
  deriving DecidableEq, Repr

/-- The refusals. -/
inductive Refusal where
  /-- Raised by an arm of `exec` whose instruction has no meaning yet; no arm does so. Safe. -/
  | notModelled (mnemonic : String)
  /-- Raised by a step with `rst = 0` of an instance whose `GAIN` is 0: the model gives it no steps (spec 30 R75,
  60 R173). Safe: nothing is claimed of such an instance (log entry 3). -/
  | invalidGain
  deriving DecidableEq, Repr

/-- The launch state: the state after one reset step (spec 70 R180, R181), of an instance at the default parameters.
`GAIN` is whatever `cfg_gain` held in that step; 1 here is the model's choice (log entry 4), as are the levels of the
input ports (log entry 5) and the one event in the trace (log entry 6). -/
def State.reset : State where
  params := Params.default
  gain := 1#2
  phase := PhaseCode.idle
  i := 0#5
  j := 0#2
  g := 0#2
  disc := 0#1
  acc := 0#24
  s1 := 0#1
  s2 := 0#1
  s3 := 0#1
  ncnt := 0#5
  val := 0#32
  clk := 0#1
  cs := 0#1
  resStatus := StatusCode.none
  resValue := 0#32
  resNoisy := 0#1
  resNcnt := 0#5
  resDiscard := 0#1
  trace := [.reset]
  inp := ⟨0#1, 1#2, 0#1, 0#1, 0#1⟩
  script := []
  tick := 0

end Sys2Proof.Machine
end

