-- ==== Sys2Proof/Machine/Ops.lean ====
section
/-! DEFINITION. The shared operations over State: the primitives of spec 20 (`emit`, `SetClk`, `ReadData`, `Wait`,
`SetCs`), the command handshake (spec 40 R90, R91), the result write (spec 10 R36), and reset (spec 70 R181), which is the
block's only abort: it has no exception entry and no return (spec 60 R160, R166). -/

namespace Sys2Proof.Machine

/-! ## Primitives -/

/-- `emit(e)` (spec 20 R50). -/
def State.emit (s : State) (e : Event) : State := { s with trace := s.trace ++ [e] }

/-- `SetClk(v)` (spec 20 R51). -/
def State.setClk (s : State) (v : BitVec 1) : State := State.emit { s with clk := v } (.clkSet v)

/-- `SetCs(v)` (spec 20 R57). -/
def State.setCs (s : State) (v : BitVec 1) : State := State.emit { s with cs := v } (.csSet v)

/-- `Wait(n)` (spec 20 R55): one event, no other change; the model keeps no time. -/
def State.wait (s : State) (n : Nat) : State := s.emit (.wait n)

/-- `ReadData()` (spec 20 R52): the level of DATA in this step, one instantaneous read. -/
def State.readData (s : State) : BitVec 1 := s.inp.dataIn

/-- `PHASE <- p` (spec 10 R20). -/
def State.goto (s : State) (p : BitVec 4) : State := { s with phase := p }

/-! ## The command handshake -/

/-- `cmd_ready` (spec 10 R37): `PHASE = IDLE` and `rst = 0`. -/
def State.cmdReady (s : State) : Bool := s.phase == PhaseCode.idle && s.inp.rst == 0#1

/-- The host offers a command: `cmd_valid = 1` with the command word on `cmd_discard` (spec 30 R70). -/
def State.offer (s : State) (d : BitVec 1) : State :=
  { s with inp := { s.inp with cmdValid := 1#1, cmdDiscard := d } }

/-- The accepting branch of IDLE (spec 40 R91): the work registers are cleared and the read starts. -/
def State.accept (s : State) : State :=
  State.goto
    (State.emit
      { s with
        disc := s.inp.cmdDiscard
        acc := 0#24
        ncnt := 0#5
        i := 0#5
        j := 0#2
        g := 0#2
        s1 := 0#1
        s2 := 0#1
        s3 := 0#1
        val := 0#32 }
      (.accept s.inp.cmdDiscard))
    PhaseCode.check

/-- A command line of the host (spec 30 R89): offer the command word; it is accepted in this step when `cmd_ready` is 1,
and else it has no effect and stays offered (spec 40 R90; log entry 10). -/
def State.command (s : State) (d : BitVec 1) : State :=
  if (s.offer d).cmdReady then (s.offer d).accept else s.offer d

/-! ## Samples and results -/

/-- `SAMPLE`'s write of `S_J` (spec 41 R105). `J = 0`, which no run reaches here, names no sample register
(log entry 13). -/
def State.putSample (s : State) (v : BitVec 1) : State :=
  { s with
    s1 := if s.j = 1#2 then v else s.s1
    s2 := if s.j = 2#2 then v else s.s2
    s3 := if s.j = 3#2 then v else s.s3 }

/-- All five result registers, written together, and the event that says so (spec 10 R36, 20 R50); `RES_DISCARD` is
copied from `DISC` (spec 10 R24). -/
def State.writeResult (s : State) (status : BitVec 2) (value : BitVec 32) (noisy : BitVec 1) (ncnt : BitVec 5) : State :=
  State.emit
    { s with
      resStatus := status
      resValue := value
      resNoisy := noisy
      resNcnt := ncnt
      resDiscard := s.disc }
    (.result status value noisy ncnt s.disc)

/-! ## Reset -/

/-- The events of a reset step (spec 70 R181): `ClkSet(0)` only when CLK was 1, `CsSet(0)` only when CS was 1. -/
def State.resetEvents (s : State) : List Event :=
  (if s.clk = 1#1 then [Event.clkSet 0#1] else []) ++ (if s.cs = 1#1 then [Event.csSet 0#1] else []) ++ [Event.reset]

/-- One step with `rst = 1` (spec 70 R180, R181, R183): every state element takes its reset value, GAIN is latched from
`cfg_gain`, no phase action, no acceptance. The parameters, the trace so far and the environment's ports are not elements of
the block and stay (log entry 21). A `cfg_gain` of 0 is latched as it is and refused when reset is released
(spec 30 R75; log entry 3). -/
def State.resetStep (s : State) : State :=
  { State.reset with
    params := s.params
    gain := s.inp.cfgGain
    trace := s.trace ++ s.resetEvents
    inp := s.inp
    script := s.script
    tick := s.tick }

/-! ## The environment between two steps -/

/-- The environment's n-th free draw of all input ports (spec 20 R53, 60 R170; log entry 1). -/
def freeInputs (n : Nat) : PortInputs :=
  { rst := Config.freeRst n
    cfgGain := Config.freeCfgGain n
    cmdValid := Config.freeCmdValid n
    cmdDiscard := Config.freeCmdDiscard n
    dataIn := Config.freeData n }

/-- The levels the environment drives next: the script's head, or a free draw when the script is used up. -/
def State.envInputs (s : State) : PortInputs :=
  match s.script with
  | p :: _ => p
  | [] => freeInputs s.tick

/-- Is a command on offer that this step does not accept? (spec 40 R90) -/
def State.offerPending (s : State) : Bool := s.inp.cmdValid == 1#1 && !s.cmdReady

/-- The input ports of the next step, from the state before this one. An offer this step does not accept stays on offer:
the host must keep offering it (spec 40 R90) and the spec gives the host no other move (I15; log entry 2). -/
def State.nextInputs (s : State) : PortInputs :=
  if s.offerPending then { s.envInputs with cmdValid := 1#1, cmdDiscard := s.inp.cmdDiscard } else s.envInputs

/-- The environment's move after a step: `b` is the state the block's action left, `s` the state before the step. -/
def State.advance (b s : State) : State :=
  { b with
    inp := s.nextInputs
    script := s.script.tail
    tick := if s.script = [] then s.tick + 1 else s.tick }

end Sys2Proof.Machine
end

