-- ==== Sys2Proof/Machine/Commands.lean ====
section
/-! DEFINITION. The commands READ and SETUP and the IDLE phase (spec 40). -/

namespace Sys2Proof.Machine

/-- READ, command word 0 (spec 40 R92, R90). -/
def execRead (s : State) : Host.Outcome State Fault Refusal := .next (s.command 0#1)

/-- SETUP, command word 1 (spec 40 R93, R90). -/
def execSetup (s : State) : Host.Outcome State Fault Refusal := .next (s.command 1#1)

/-- IDLE (spec 40 R91): accept an offered command, else a stutter step. -/
def execIdle (s : State) : Host.Outcome State Fault Refusal :=
  if s.inp.cmdValid = 1#1 then .next s.accept else .next (s.goto PhaseCode.idle)

end Sys2Proof.Machine
end

