-- ==== Sys2Proof/Machine/Gain.lean ====
section
/-! DEFINITION. The gain pulses, the end of the critical section, sign extension and the result (spec 42). No phase raises
an exception (spec 60 R160). -/

namespace Sys2Proof.Machine

/-- G_RISE (spec 42 R130). -/
def execGRise (s : State) : Host.Outcome State Fault Refusal := .next ((s.setClk 1#1).goto PhaseCode.gWaitH)

/-- G_WAIT_H (spec 42 R131). -/
def execGWaitH (s : State) : Host.Outcome State Fault Refusal :=
  .next ((s.wait s.params.tL).goto PhaseCode.gFall)

/-- G_FALL (spec 42 R132): a 2-bit add, `G + 1 = GAIN` read before the step. -/
def execGFall (s : State) : Host.Outcome State Fault Refusal :=
  .next
    { s.setClk 0#1 with
      g := s.g + 1#2
      phase := if s.g + 1#2 = s.gain then PhaseCode.csOff else PhaseCode.gWaitL }

/-- CS_OFF (spec 42 R133). -/
def execCsOff (s : State) : Host.Outcome State Fault Refusal := .next ((s.setCs 0#1).goto PhaseCode.gWaitL)

/-- G_WAIT_L (spec 42 R134). -/
def execGWaitL (s : State) : Host.Outcome State Fault Refusal :=
  .next ((s.wait s.params.tL).goto (if s.g.toNat < s.gain.toNat then PhaseCode.gRise else PhaseCode.sext))

/-- SEXT (spec 42 R137, R136). -/
def execSext (s : State) : Host.Outcome State Fault Refusal :=
  .next { s with val := sext32 s.acc, phase := PhaseCode.complete }

/-- COMPLETE (spec 42 R138). -/
def execComplete (s : State) : Host.Outcome State Fault Refusal :=
  .next ((s.writeResult StatusCode.sample s.val (noisyFlag s.ncnt) s.ncnt).goto PhaseCode.idle)

end Sys2Proof.Machine
end

