-- ==== Sys2Proof/Machine/Sampling.lean ====
section
/-! DEFINITION. The readiness check and the bit windows (spec 41). No phase raises an exception (spec 60 R160). -/

namespace Sys2Proof.Machine

/-- CHECK (spec 41 R101). -/
def execCheck (s : State) : Host.Outcome State Fault Refusal :=
  let r := s.emit (.ready s.readData)
  if s.readData = 1#1 then
    .next ((r.writeResult StatusCode.notReady 0#32 0#1 0#5).goto PhaseCode.idle)
  else .next (r.goto PhaseCode.csOn)

/-- CS_ON (spec 41 R102). -/
def execCsOn (s : State) : Host.Outcome State Fault Refusal := .next ((s.setCs 1#1).goto PhaseCode.rise)

/-- RISE (spec 41 R103). -/
def execRise (s : State) : Host.Outcome State Fault Refusal :=
  .next { s.setClk 1#1 with j := 1#2, phase := PhaseCode.waitS }

/-- WAIT_S (spec 41 R104), for every `T_S`, one above `T_L` too (log entry 25). -/
def execWaitS (s : State) : Host.Outcome State Fault Refusal :=
  .next ((s.wait s.params.tS).goto PhaseCode.sample)

/-- SAMPLE (spec 41 R105). -/
def execSample (s : State) : Host.Outcome State Fault Refusal :=
  let r := (s.putSample s.readData).emit (.sample s.i s.j s.readData)
  if s.j.toNat < 3 then .next { r with j := s.j + 1#2, phase := PhaseCode.waitS }
  else .next (r.goto PhaseCode.vote)

/-- VOTE (spec 41 R114). -/
def execVote (s : State) : Host.Outcome State Fault Refusal :=
  .next
    { s with
      acc := setWindowBit s.acc s.i (maj3 s.s1 s.s2 s.s3)
      ncnt := countNoisy s.ncnt s.s1 s.s2 s.s3
      phase := PhaseCode.fall }

/-- FALL (spec 41 R115). -/
def execFall (s : State) : Host.Outcome State Fault Refusal := .next ((s.setClk 0#1).goto PhaseCode.waitL)

/-- WAIT_L (spec 41 R116). -/
def execWaitL (s : State) : Host.Outcome State Fault Refusal :=
  let r := s.wait s.params.tL
  if s.i.toNat < 23 then .next { r with i := s.i + 1#5, phase := PhaseCode.rise }
  else .next (r.goto PhaseCode.gRise)

end Sys2Proof.Machine
end

