-- ==== Sys2Proof/Machine/Dispatch.lean ====
section
/-! DEFINITION. One arm per constructor of Instr. -/

namespace Sys2Proof.Machine

def exec (i : Instr) (s : State) : Host.Outcome State Fault Refusal :=
  match i with
  | .read => Sys2Proof.Machine.execRead s
  | .setup => Sys2Proof.Machine.execSetup s
  | .idle => Sys2Proof.Machine.execIdle s
  | .check => Sys2Proof.Machine.execCheck s
  | .csOn => Sys2Proof.Machine.execCsOn s
  | .rise => Sys2Proof.Machine.execRise s
  | .waitS => Sys2Proof.Machine.execWaitS s
  | .sample => Sys2Proof.Machine.execSample s
  | .vote => Sys2Proof.Machine.execVote s
  | .fall => Sys2Proof.Machine.execFall s
  | .waitL => Sys2Proof.Machine.execWaitL s
  | .gRise => Sys2Proof.Machine.execGRise s
  | .gWaitH => Sys2Proof.Machine.execGWaitH s
  | .gFall => Sys2Proof.Machine.execGFall s
  | .csOff => Sys2Proof.Machine.execCsOff s
  | .gWaitL => Sys2Proof.Machine.execGWaitL s
  | .sext => Sys2Proof.Machine.execSext s
  | .complete => Sys2Proof.Machine.execComplete s

end Sys2Proof.Machine
end

