-- ==== Sys2Proof/Machine/Fetch.lean ====
section
/-! DEFINITION. Which code a step executes, and how a code is put where the next step finds it. -/

namespace Sys2Proof.Machine

/-- The code of this step: the command word when the block is in IDLE and a command is offered (spec 40 R90), else the
phase code (spec 10 R20, 30 R80). Log entry 9. -/
def State.fetchCode (s : State) : Code :=
  if s.phase = PhaseCode.idle ∧ s.inp.cmdValid = 1#1 then .cmd s.inp.cmdDiscard else .phase s.phase

/-- Does the model give this instance steps? (spec 30 R75) -/
def State.admitted (s : State) : Bool := gainWellFormed s.gain

/-- Out of reset with an admitted gain, so that the next step executes a code: `rst` becomes 0, and GAIN becomes 1 only
where it was 0, of which no step is given (spec 30 R75). -/
def State.released (s : State) : State :=
  { s with gain := if s.gain = 0#2 then 1#2 else s.gain, inp := { s.inp with rst := 0#1 } }

/-- The state whose next step executes the code `c` (log entry 14). -/
def State.withCode (s : State) : Code → State
  | .cmd w => (s.released.goto PhaseCode.idle).offer w
  | .phase w =>
    { s.released.goto w with
      inp := { s.released.inp with cmdValid := if w = PhaseCode.idle then 0#1 else s.inp.cmdValid } }

/-- An opcode-table word put where the next step fetches (log entries 11 and 14). -/
def State.placeTableWord (s : State) (nbits w : Nat) : State :=
  s.withCode (if tableWordIsCmd nbits then .cmd (BitVec.ofNat 1 w) else .phase (BitVec.ofNat 4 w))

end Sys2Proof.Machine
end

