-- ==== Sys2Proof/Machine/Step.lean ====
section
/-! DEFINITION. One step of the machine. -/

namespace Sys2Proof.Machine

/-- One step (spec 00 R8, 60 R165, R173): a reset step when `rst` is 1 (it wins over everything); else a refusal when the
gain is invalid (spec 30 R75); else the action of the fetched code. Then the environment drives the input ports anew. -/
def step (s : State) : Host.Outcome State Fault Refusal :=
  if s.inp.rst = 1#1 then .next (s.resetStep.advance s)
  else if s.admitted then
    match exec (decode s.fetchCode) s with
    | .next b => .next (b.advance s)
    | .fault r => .fault r
    | .refused r => .refused r
  else .refused .invalidGain

/-- `s` with an opcode-table word where the next step executes it (log entries 11 and 14). -/
def State.withFetchWord (s : State) (nbits w : Nat) : State := s.placeTableWord nbits w

end Sys2Proof.Machine
end

