-- ==== Sys2Proof/Machine/Ports.lean ====
section
/-! DEFINITION. The output ports (spec 10 R37), the host's read of the results (spec 20 R58, I12), and the byte lanes of a
bus wrapper (spec 20 R62). -/

namespace Sys2Proof.Machine

/-- The output ports of spec 10 R37. -/
structure PortOutputs where
  cmdReady : BitVec 1
  busy : BitVec 1
  clkOut : BitVec 1
  csActive : BitVec 1
  resStatus : BitVec 2
  resValue : BitVec 32
  resNoisy : BitVec 1
  resNcnt : BitVec 5
  resDiscard : BitVec 1
  deriving DecidableEq, Repr

/-- `busy` (spec 10 R37): `PHASE != IDLE`. -/
def State.busy (s : State) : Bool := s.phase != PhaseCode.idle

/-- The levels of the output ports (spec 10 R37). Reading them changes nothing (spec 20 R58). -/
def State.outputs (s : State) : PortOutputs :=
  { cmdReady := BitVec.ofBool s.cmdReady
    busy := BitVec.ofBool s.busy
    clkOut := s.clk
    csActive := s.cs
    resStatus := s.resStatus
    resValue := s.resValue
    resNoisy := s.resNoisy
    resNcnt := s.resNcnt
    resDiscard := s.resDiscard }

/-- A bus read of the result ports, as a group: the values of one completed read (spec 20 R58), or the fault of a reader
that sees 0b11 (spec 30 R86, I12; log entry 18). -/
def State.readResults (s : State) : Host.Outcome PortOutputs Fault Refusal :=
  if s.resStatus = 0b11#2 then .fault .brokenStatus else .next s.outputs

/-- `res_value` on the byte lanes of a bus wrapper, lowest lane first, in the OPEN order `BUS_BYTE_ORDER`
(spec 20 R62; log entry 19), one of the two orders the model allows (log entry 24). -/
def State.resValueLanes (s : State) : List (BitVec 8) :=
  let lanes := [s.resValue.extractLsb' 0 8, s.resValue.extractLsb' 8 8, s.resValue.extractLsb' 16 8,
    s.resValue.extractLsb' 24 8]
  match Config.busByteOrder with
  | .littleEndian => lanes
  | .bigEndian => lanes.reverse

end Sys2Proof.Machine
end

