-- ==== Sys2Proof/Safety.lean ====
section
/-! DEFINITION. The terms the claims use: the invariants of spec 10 R38, the launch premises of spec 70 R186, the platform's
low-period duty (70 R191), and what is counted over the trace and over the rest of a read (42 R135, R139; 70 R195, R196). -/

namespace Sys2Proof

open Sys2Proof.Machine

/-! ## The invariants of spec 10 R38 -/

/-- The phases of a bit window, `RISE` (0x3) to `WAIT_L` (0x8) in the order of spec 30 R80. -/
abbrev Safety.inWindow (p : BitVec 4) : Prop := 3 ≤ p.toNat ∧ p.toNat ≤ 8

/-- The bits of the accumulator that windows from `n` on write are 0. -/
abbrev Safety.unvotedClear (acc : BitVec 24) (n : Nat) : Prop :=
  ∀ k, k < 24 → n ≤ k → acc.getLsbD (23 - k) = false

/-- R38 item 1. -/
abbrev Safety.IdleLinesLow (s : State) : Prop := s.phase = PhaseCode.idle → s.clk = 0#1 ∧ s.cs = 0#1

/-- R38 item 2. -/
abbrev Safety.CriticalSectionSpan (s : State) : Prop :=
  s.cs = 1#1 ↔
    s.phase ∈ [PhaseCode.rise, PhaseCode.waitS, PhaseCode.sample, PhaseCode.vote, PhaseCode.fall, PhaseCode.waitL,
      PhaseCode.gRise, PhaseCode.gWaitH, PhaseCode.gFall, PhaseCode.csOff] ∨
    (s.phase = PhaseCode.gWaitL ∧ s.g.toNat < s.gain.toNat)

/-- R38 item 3. -/
abbrev Safety.ClockHighPhases (s : State) : Prop :=
  s.clk = 1#1 ↔
    s.phase ∈ [PhaseCode.waitS, PhaseCode.sample, PhaseCode.vote, PhaseCode.fall, PhaseCode.gWaitH, PhaseCode.gFall]

/-- R38 item 4. -/
abbrev Safety.UnvotedBitsClear (s : State) : Prop :=
  s.phase ∈ [PhaseCode.rise, PhaseCode.waitS, PhaseCode.sample, PhaseCode.vote] → Safety.unvotedClear s.acc s.i.toNat

/-- R38 item 5. -/
abbrev Safety.NoisyCountBound (s : State) : Prop :=
  (s.phase ∈ [PhaseCode.rise, PhaseCode.waitS, PhaseCode.sample, PhaseCode.vote] → s.ncnt.toNat ≤ s.i.toNat) ∧
  (s.phase ∈ [PhaseCode.fall, PhaseCode.waitL] → s.ncnt.toNat ≤ s.i.toNat + 1) ∧
  s.ncnt.toNat ≤ 24

/-- R38 item 6. -/
abbrev Safety.SampleIndexRange (s : State) : Prop :=
  s.phase ∈ [PhaseCode.waitS, PhaseCode.sample] → 1 ≤ s.j.toNat ∧ s.j.toNat ≤ 3

/-- R38 item 7, with `G <= GAIN` everywhere (R23). -/
abbrev Safety.PulseCountRange (s : State) : Prop :=
  (1 ≤ s.phase.toNat ∧ s.phase.toNat ≤ 8 → s.g = 0#2) ∧
  (s.phase ∈ [PhaseCode.gRise, PhaseCode.gWaitH, PhaseCode.gFall] → s.g.toNat < s.gain.toNat) ∧
  (s.phase = PhaseCode.gWaitL → 1 ≤ s.g.toNat ∧ s.g.toNat ≤ s.gain.toNat) ∧
  (s.phase ∈ [PhaseCode.csOff, PhaseCode.sext, PhaseCode.complete] → s.g = s.gain) ∧
  s.g.toNat ≤ s.gain.toNat

/-- The seven items of spec 10 R38. -/
abbrev Safety.Rule38 (s : State) : Prop :=
  Safety.IdleLinesLow s ∧ Safety.CriticalSectionSpan s ∧ Safety.ClockHighPhases s ∧ Safety.UnvotedBitsClear s ∧
  Safety.NoisyCountBound s ∧ Safety.SampleIndexRange s ∧ Safety.PulseCountRange s

/-- What the rules beside R38 say of every reachable state, and what makes R38 inductive: `I <= 23` (R21), a gain that is
valid while a read is in progress (30 R75), the cleared work registers before the first window (40 R91), the bits not yet
voted in `FALL` and `WAIT_L`, and `VAL` at `COMPLETE` (42 R137). -/
abbrev Safety.ReadProgress (s : State) : Prop :=
  s.i.toNat ≤ 23 ∧
  (s.phase ≠ PhaseCode.idle → s.gain ≠ 0#2) ∧
  (s.phase ∈ [PhaseCode.check, PhaseCode.csOn] → s.i = 0#5 ∧ s.acc = 0#24 ∧ s.ncnt = 0#5) ∧
  (s.phase ∈ [PhaseCode.fall, PhaseCode.waitL] → Safety.unvotedClear s.acc (s.i.toNat + 1)) ∧
  (s.phase = PhaseCode.complete → s.val = sext32 s.acc)

/-- What spec 10 R31 to R34, 30 R86 and 42 R136 say of the result registers in every state: no 0b11; zero fields unless the
status is `SAMPLE`; the flag is the count's; the value is a sign-extended 24-bit word. -/
abbrev Safety.ResultsConsistent (s : State) : Prop :=
  s.resStatus ≠ 0b11#2 ∧
  (s.resStatus ≠ StatusCode.sample → s.resValue = 0#32 ∧ s.resNoisy = 0#1 ∧ s.resNcnt = 0#5) ∧
  (s.resNoisy = 1#1 ↔ 0 < s.resNcnt.toNat) ∧
  s.resNcnt.toNat ≤ 24 ∧
  (s.resValue.extractLsb' 0 24).signExtend 32 = s.resValue

/-- The invariant every step keeps. -/
abbrev Safety.Inv (s : State) : Prop :=
  Safety.Rule38 s ∧ Safety.ReadProgress s ∧ Safety.ResultsConsistent s

/-! ## Launch and platform -/

/-- The block part of the launch premises of spec 70 R186: the reset state of R181 with a valid gain, and `rst = 0`. -/
abbrev Safety.Launch (s : State) : Prop :=
  s = { State.reset with
        params := s.params, gain := s.gain, trace := s.trace, inp := s.inp, script := s.script, tick := s.tick } ∧
  gainWellFormed s.gain = true ∧ s.inp.rst = 0#1

/-- The platform's duty of spec 70 R191: `T_L` exceeds `CHIP_T_LOW_MIN` and does not exceed `CHIP_T_TIMEOUT`.
That all three are compared as whole numbers of TU is the model's choice (log entry 23). -/
def Safety.lowPeriodOk (p : Params) : Prop := Config.chipTLowMin < p.tL ∧ p.tL ≤ Config.chipTTimeout

/-- Can a wait of nominal length `n` take `actual` TU? (spec 20 R55: at least `n`; `T_OVERRUN_MAX` bounds the excess).
That both lengths and the bound are whole numbers of TU is the model's choice (log entry 23). -/
def Safety.waitCanTake (n actual : Nat) : Prop := n ≤ actual ∧ actual ≤ n + Config.tOverrunMax

/-! ## Counting over the trace -/

/-- Is the event a CLK transition? (spec 20 R50, R51) -/
def Safety.isClkSet : Event → Bool
  | .clkSet _ => true
  | _ => false

/-- The number of CLK transitions in a trace. -/
def Safety.clkSets (es : List Event) : Nat := es.countP Safety.isClkSet

/-- The nominal length of one event in TU: line actions count as 0 (spec 70 section 4). -/
def Safety.waitOf : Event → Nat
  | .wait n => n
  | _ => 0

/-- The sum of the `Wait` arguments of a trace, in TU (spec 70 R195). -/
def Safety.waitSum (es : List Event) : Nat := (es.map Safety.waitOf).sum

/-- The part of it waited with `cs_active = 1`, given its level before the first event (spec 70 R196). -/
def Safety.csWaitSum : BitVec 1 → List Event → Nat
  | _, [] => 0
  | _, .csSet v :: es => Safety.csWaitSum v es
  | cs, e :: es => (if cs = 1#1 then Safety.waitOf e else 0) + Safety.csWaitSum cs es

/-- The nominal waits in microseconds. -/
def Safety.micros (p : Params) (tu : Nat) : Nat := tu * p.tu

/-! ## The rest of a read -/

/-- Gain pulses still to come. -/
def Safety.pulsesLeft (s : State) : Nat := s.gain.toNat - s.g.toNat

/-- Block steps from a state of a full read to its return to `IDLE` (spec 42 R139's count, from any phase): 10 per bit
window, 4 per gain pulse, `CS_OFF`, `SEXT`, `COMPLETE`. -/
def Safety.stepsLeft (s : State) : Nat :=
  let r := Safety.pulsesLeft s
  let later := 10 * (23 - s.i.toNat) + 4 * r + 3
  match s.phase.toNat with
  | 0x0 => 0
  | 0x1 => 245 + 4 * r
  | 0x2 => 244 + 4 * r
  | 0x3 => 10 + later
  | 0x4 => 2 * (4 - s.j.toNat) + 3 + later
  | 0x5 => 2 * (4 - s.j.toNat) + 2 + later
  | 0x6 => 3 + later
  | 0x7 => 2 + later
  | 0x8 => 1 + later
  | 0x9 => 4 * r + 3
  | 0xA => 4 * r + 2
  | 0xB => 4 * r + 1
  | 0xC => 4
  | 0xD => if r = 0 then 3 else 4 * r + 4
  | 0xE => 2
  | _ => 1

/-- CLK transitions from a state of a full read to its end (spec 42 R135, from any phase): two per window and per pulse. -/
def Safety.clkSetsLeft (s : State) : Nat :=
  let r := Safety.pulsesLeft s
  let later := 2 * (23 - s.i.toNat) + 2 * r
  match s.phase.toNat with
  | 0x1 | 0x2 => 48 + 2 * r
  | 0x3 => 2 + later
  | 0x4 | 0x5 | 0x6 | 0x7 => 1 + later
  | 0x8 => later
  | 0x9 | 0xD => 2 * r
  | 0xA | 0xB => 2 * r - 1
  | _ => 0

/-! ## The events of a step and of a read -/

/-- The events a step appended: what `t`'s trace holds beyond `s`'s (spec 20 R50). -/
def Safety.newEvents (s t : State) : List Event := t.trace.drop s.trace.length

/-- The events of bit window `w` with samples `v` (spec 20 R64, 41 R100). -/
def Safety.windowEvents (p : Params) (w : Nat) (v : BitVec 1 × BitVec 1 × BitVec 1) : List Event :=
  [.clkSet 1#1,
   .wait p.tS, .sample (BitVec.ofNat 5 w) 1#2 v.1,
   .wait p.tS, .sample (BitVec.ofNat 5 w) 2#2 v.2.1,
   .wait p.tS, .sample (BitVec.ofNat 5 w) 3#2 v.2.2,
   .clkSet 0#1, .wait p.tL]

/-- The events of a gain pulse that is not the last (spec 42 R130 to R134). -/
def Safety.pulseEvents (p : Params) : List Event := [.clkSet 1#1, .wait p.tL, .clkSet 0#1, .wait p.tL]

/-- The events of the last gain pulse: the critical section ends before its low wait (spec 42 R133, C2). -/
def Safety.lastPulseEvents (p : Params) : List Event :=
  [.clkSet 1#1, .wait p.tL, .clkSet 0#1, .csSet 0#1, .wait p.tL]

/-- The line events of a full read from the readiness read on, up to the result (spec 20 R64): the readiness read, the
start of the critical section, 24 windows in order, the gain pulses. -/
def Safety.lineEvents (p : Params) (pulses : Nat) (samples : Nat → BitVec 1 × BitVec 1 × BitVec 1) : List Event :=
  [.ready 0#1, .csSet 1#1] ++ (List.range 24).flatMap (fun w => Safety.windowEvents p w (samples w)) ++
    (List.replicate (pulses - 1) (Safety.pulseEvents p)).flatten ++ Safety.lastPulseEvents p

/-! ## Two states compared -/

/-- Equal but for the environment's part: input ports, script and draw counter. -/
def Safety.sameBlock (s t : State) : Prop :=
  t = { s with inp := t.inp, script := t.script, tick := t.tick }

/-- Equal but for the result registers and the trace: what a read in progress depends on is the same. -/
def Safety.sameRead (s t : State) : Prop :=
  t = { s with
        resStatus := t.resStatus, resValue := t.resValue, resNoisy := t.resNoisy, resNcnt := t.resNcnt,
        resDiscard := t.resDiscard, trace := t.trace }

/-- The five result registers as a group (spec 20 R58). -/
def Safety.results (s : State) : BitVec 2 × BitVec 32 × BitVec 1 × BitVec 5 × BitVec 1 :=
  (s.resStatus, s.resValue, s.resNoisy, s.resNcnt, s.resDiscard)

/-- An event without the command word it carries. -/
def Safety.eraseDiscard : Event → Event
  | .accept _ => .accept 0#1
  | .result st x ny n _ => .result st x ny n 0#1
  | e => e

/-- Equal but for the command word, wherever it went: `cmd_discard`, `DISC`, `RES_DISCARD` and the events that carry it. -/
def Safety.sameButDiscard (s t : State) : Prop :=
  t = { s with
        disc := t.disc, resDiscard := t.resDiscard, trace := t.trace
        inp := { s.inp with cmdDiscard := t.inp.cmdDiscard } } ∧
  s.trace.map Safety.eraseDiscard = t.trace.map Safety.eraseDiscard

/-! ## A full read -/

/-- `k` steps of the machine (what `Host.Core.run` is for `core`). -/
def Safety.run : Nat → State → Host.Outcome State Fault Refusal
  | 0, s => .next s
  | k + 1, s =>
    match step s with
    | .next t => Safety.run k t
    | .fault r => .fault r
    | .refused r => .refused r

/-- DATA at the `n`-th of the levels driven after the accepting step (0 when there is none). -/
def Safety.levelAt (ps : List PortInputs) (n : Nat) : BitVec 1 := ((ps[n]?).map PortInputs.dataIn).getD 0#1

/-- The samples of window `w` in the levels driven after the accepting step: `CHECK` and `CS_ON` take the first two, a
window takes ten, and its three `SAMPLE` steps are the third, fifth and seventh of them (spec 41 R100). -/
def Safety.samplesOf (ps : List PortInputs) (w : Nat) : BitVec 1 × BitVec 1 × BitVec 1 :=
  (Safety.levelAt ps (10 * w + 4), Safety.levelAt ps (10 * w + 6), Safety.levelAt ps (10 * w + 8))

/-- How many of the 24 windows had samples that were not unanimous (spec 41 R111). -/
def Safety.noisyWindows (samples : Nat → BitVec 1 × BitVec 1 × BitVec 1) : Nat :=
  (List.range 24).countP fun w => !((samples w).1 == (samples w).2.1 && (samples w).2.1 == (samples w).2.2)

/-- The premises of a full read that is not reset: a command is accepted in this step, the coming levels `ps` hold
`rst = 0` for as many steps as the read takes, and the readiness read sees 0. -/
structure Safety.FullRead (s : State) (ps : List PortInputs) : Prop where
  inv : Safety.Inv s
  idle : s.phase = PhaseCode.idle
  gain : gainWellFormed s.gain = true
  rst : s.inp.rst = 0#1
  offered : s.inp.cmdValid = 1#1
  script : ∃ rest, s.script = ps ++ rest
  long : ps.length = 245 + 4 * s.gain.toNat
  quiet : ∀ p ∈ ps, p.rst = 0#1
  ready : Safety.levelAt ps 0 = 0#1

end Sys2Proof
end

