-- ==== Sys2Proof/Certificates/Slice0/Obligations.lean ====
section
/-! DEFINITION. The statements for the provers, each from a numbered rule of spec/. Every instruction's statement gives its
next state as an equation, so it also says what stays as it was: every field that the equation does not name. -/

open Sys2Proof Sys2Proof.Machine

/-! ## Encodings (spec 30) -/

/-- The words of the opcode table, written out from spec 30 R70 and R80, decode to their rows' instructions. -/
def Obligations.TableWordsDecodeToTheirRows : Prop :=
  decodeRaw ⟨1, 0b0⟩ = .ok .read ∧ decodeRaw ⟨1, 0b1⟩ = .ok .setup ∧
  decodeRaw ⟨4, 0b0000⟩ = .ok .idle ∧ decodeRaw ⟨4, 0b0001⟩ = .ok .check ∧ decodeRaw ⟨4, 0b0010⟩ = .ok .csOn ∧
  decodeRaw ⟨4, 0b0011⟩ = .ok .rise ∧ decodeRaw ⟨4, 0b0100⟩ = .ok .waitS ∧ decodeRaw ⟨4, 0b0101⟩ = .ok .sample ∧
  decodeRaw ⟨4, 0b0110⟩ = .ok .vote ∧ decodeRaw ⟨4, 0b0111⟩ = .ok .fall ∧ decodeRaw ⟨4, 0b1000⟩ = .ok .waitL ∧
  decodeRaw ⟨4, 0b1001⟩ = .ok .gRise ∧ decodeRaw ⟨4, 0b1010⟩ = .ok .gWaitH ∧ decodeRaw ⟨4, 0b1011⟩ = .ok .gFall ∧
  decodeRaw ⟨4, 0b1100⟩ = .ok .csOff ∧ decodeRaw ⟨4, 0b1101⟩ = .ok .gWaitL ∧ decodeRaw ⟨4, 0b1110⟩ = .ok .sext ∧
  decodeRaw ⟨4, 0b1111⟩ = .ok .complete

/-- Spec 30, section 1: every command word is a command, and `cmd_valid = 0` offers none whatever `cmd_discard` holds. The
last two clauses are about `fetchCode`, which only a step with `rst = 0` reads (a reset step fetches nothing). That it is
the command word in IDLE with `cmd_valid = 1`, and else the phase code, is the model's choice (DESIGN CHOICE, log entry 9):
the spec has no instruction fetch (20 R67). -/
def Obligations.EveryCommandWordIsACommand : Prop :=
  (∀ w : BitVec 1, decode (.cmd w) = if w = 0#1 then Instr.read else Instr.setup) ∧
  (∀ s : State, s.phase = 0x0#4 → s.inp.cmdValid = 1#1 → s.fetchCode = .cmd s.inp.cmdDiscard) ∧
  (∀ s : State, s.inp.cmdValid = 0#1 → s.fetchCode = .phase s.phase)

/-- Spec 30 R81: each of the 16 phase codes is one micro-operation, and no two are the same. -/
def Obligations.EveryPhaseCodeIsAMicroOperation : Prop :=
  (∀ w : BitVec 4, encode (decode (.phase w)) = .phase w) ∧
  (∀ v w : BitVec 4, decode (.phase v) = decode (.phase w) → v = w)

/-- Decoder and encoder agree exactly: raw bits are the instruction `i` if and only if they are `i`'s code at its width. -/
def Obligations.DecodeAndEncodeAgreeExactly : Prop :=
  ∀ (r : RawWord) (i : Instr), decodeRaw r = .ok i ↔ r = (encode i).raw

/-- Spec 30 R88: raw bits are an instruction exactly when their width is 1 or 4 and the value fits it. -/
def Obligations.OnlyTheTwoFixedWidthsDecode : Prop :=
  ∀ r : RawWord, (∃ i, decodeRaw r = .ok i) ↔ ((r.nbits = 1 ∧ r.value < 2) ∨ (r.nbits = 4 ∧ r.value < 16))

/-! ## Commands and IDLE (spec 40) -/

/-- Spec 40 R91 to R93: READ and SETUP, when `cmd_ready` is 1, clear the work registers, set DISC to the command word,
emit `Accept` and go to CHECK. The command port carries the offer (30 R70; log entry 10). -/
def Obligations.ReadAndSetupAreAcceptedWhenReady : Prop :=
  ∀ s : State, s.phase = 0x0#4 → s.inp.rst = 0#1 →
    exec .read s = .next { s with
      disc := 0#1, acc := 0#24, ncnt := 0#5, i := 0#5, j := 0#2, g := 0#2, s1 := 0#1, s2 := 0#1, s3 := 0#1, val := 0#32
      trace := s.trace ++ [.accept 0#1], phase := 0x1#4
      inp := { s.inp with cmdValid := 1#1, cmdDiscard := 0#1 } } ∧
    exec .setup s = .next { s with
      disc := 1#1, acc := 0#24, ncnt := 0#5, i := 0#5, j := 0#2, g := 0#2, s1 := 0#1, s2 := 0#1, s3 := 0#1, val := 0#32
      trace := s.trace ++ [.accept 1#1], phase := 0x1#4
      inp := { s.inp with cmdValid := 1#1, cmdDiscard := 1#1 } }

/-- Spec 40 R90: where `cmd_ready` is 0 a command is not accepted and changes nothing but the offer on the port. That the
instruction then is its offer is the model's reading (log entry 10). -/
def Obligations.AnUnacceptedCommandOnlyStaysOnOffer : Prop :=
  ∀ s : State, (s.phase ≠ 0x0#4 ∨ s.inp.rst = 1#1) →
    exec .read s = .next { s with inp := { s.inp with cmdValid := 1#1, cmdDiscard := 0#1 } } ∧
    exec .setup s = .next { s with inp := { s.inp with cmdValid := 1#1, cmdDiscard := 1#1 } }

/-- Spec 40 R91: IDLE accepts an offered command; with none it is a stutter step, which in IDLE changes nothing. The lines
are low on entry (10 R38). -/
def Obligations.IdleAcceptsOrStutters : Prop :=
  decode (.phase 0x0#4) = .idle ∧
  (∀ s : State, s.inp.cmdValid = 1#1 →
    exec .idle s = .next { s with
      disc := s.inp.cmdDiscard, acc := 0#24, ncnt := 0#5, i := 0#5, j := 0#2, g := 0#2, s1 := 0#1, s2 := 0#1
      s3 := 0#1, val := 0#32, trace := s.trace ++ [.accept s.inp.cmdDiscard], phase := 0x1#4 }) ∧
  (∀ s : State, s.inp.cmdValid = 0#1 → exec .idle s = .next { s with phase := 0x0#4 }) ∧
  (∀ s : State, s.inp.cmdValid = 0#1 → s.phase = 0x0#4 → exec .idle s = .next s) ∧
  (∀ s : State, Safety.Inv s → s.phase = 0x0#4 → s.clk = 0#1 ∧ s.cs = 0#1)

/-- The accepting branch of IDLE and the command it accepts are one and the same (log entry 9). -/
def Obligations.IdleAcceptanceIsTheOfferedCommand : Prop :=
  ∀ s : State, s.phase = 0x0#4 → s.inp.rst = 0#1 → s.inp.cmdValid = 1#1 →
    exec .idle s = exec (decode (.cmd s.inp.cmdDiscard)) s

/-! ## Readiness check and bit windows (spec 41) -/

/-- Spec 41 R101: CHECK. -/
def Obligations.CheckReadsReadinessOnce : Prop :=
  decode (.phase 0x1#4) = .check ∧
  (∀ s : State, s.inp.dataIn = 1#1 →
    exec .check s = .next { s with
      resStatus := 0b01#2, resValue := 0#32, resNoisy := 0#1, resNcnt := 0#5, resDiscard := s.disc
      trace := s.trace ++ [.ready 1#1, .result 0b01#2 0#32 0#1 0#5 s.disc], phase := 0x0#4 }) ∧
  (∀ s : State, s.inp.dataIn = 0#1 →
    exec .check s = .next { s with trace := s.trace ++ [.ready 0#1], phase := 0x2#4 }) ∧
  (∀ s : State, Safety.Inv s → s.phase = 0x1#4 → s.cs = 0#1 ∧ s.clk = 0#1)

/-- Spec 41 R102: CS_ON, with CS 0 on entry, right after a CHECK that read 0. -/
def Obligations.CsOnEntersTheCriticalSection : Prop :=
  decode (.phase 0x2#4) = .csOn ∧
  (∀ s : State, exec .csOn s = .next { s with cs := 1#1, trace := s.trace ++ [.csSet 1#1], phase := 0x3#4 }) ∧
  (∀ s : State, Safety.Inv s → s.phase = 0x2#4 → s.cs = 0#1) ∧
  (∀ s t : State, step s = .next t → t.phase = 0x2#4 → s.phase = 0x1#4 ∧ s.inp.dataIn = 0#1)

/-- Spec 41 R103: RISE, with CLK 0 on entry. -/
def Obligations.RiseStartsABitWindow : Prop :=
  decode (.phase 0x3#4) = .rise ∧
  (∀ s : State, exec .rise s = .next { s with
      clk := 1#1, j := 1#2, trace := s.trace ++ [.clkSet 1#1], phase := 0x4#4 }) ∧
  (∀ s : State, Safety.Inv s → s.phase = 0x3#4 → s.clk = 0#1 ∧ s.i.toNat ≤ 23)

/-- Spec 41 R104: WAIT_S. -/
def Obligations.WaitSOnlyWaits : Prop :=
  decode (.phase 0x4#4) = .waitS ∧
  (∀ s : State, exec .waitS s = .next { s with trace := s.trace ++ [.wait s.params.tS], phase := 0x5#4 }) ∧
  (∀ s : State, Safety.Inv s → s.phase = 0x4#4 → 1 ≤ s.j.toNat ∧ s.j.toNat ≤ 3)

/-- Spec 41 R105: SAMPLE, for every J that the spec gives it, 1 to 3; J = 0 cannot occur, and CLK is 1. -/
def Obligations.SampleStoresTheLevelOfData : Prop :=
  decode (.phase 0x5#4) = .sample ∧
  (∀ s : State, 1 ≤ s.j.toNat → s.j.toNat < 3 → exec .sample s = .next { s with
      s1 := if s.j = 1#2 then s.inp.dataIn else s.s1
      s2 := if s.j = 2#2 then s.inp.dataIn else s.s2
      j := s.j + 1#2, trace := s.trace ++ [.sample s.i s.j s.inp.dataIn], phase := 0x4#4 }) ∧
  (∀ s : State, s.j = 3#2 → exec .sample s = .next { s with
      s3 := s.inp.dataIn, trace := s.trace ++ [.sample s.i 3#2 s.inp.dataIn], phase := 0x6#4 }) ∧
  (∀ s : State, Safety.Inv s → s.phase = 0x5#4 → s.clk = 1#1 ∧ s.j ≠ 0#2)

/-- Spec 41 R110: the majority of three samples, as a sum and as the Boolean formula. -/
def Obligations.MajorityOfThreeSamples : Prop :=
  ∀ a b c : BitVec 1,
    (maj3 a b c = 1#1 ↔ 2 ≤ a.toNat + b.toNat + c.toNat) ∧
    maj3 a b c = (a &&& b) ||| (a &&& c) ||| (b &&& c)

/-- Spec 41 R111: noisy exactly when the samples are not unanimous. -/
def Obligations.NoisyMeansNotUnanimous : Prop :=
  ∀ a b c : BitVec 1,
    (noisy3 a b c = 1#1 ↔ (a.toNat + b.toNat + c.toNat = 1 ∨ a.toNat + b.toNat + c.toNat = 2)) ∧
    (noisy3 a b c = 0#1 ↔ (a = b ∧ b = c))

/-- Spec 41 R112 and 95 T1: every combination resolves, the filter is symmetric in its arguments, and inverting the
samples inverts the vote and leaves the noisy indication. -/
def Obligations.VoteIsSymmetricAndAlwaysResolves : Prop :=
  ∀ a b c : BitVec 1,
    (maj3 a b c = 0#1 ∨ maj3 a b c = 1#1) ∧
    maj3 a b c = maj3 b a c ∧ maj3 a b c = maj3 a c b ∧ noisy3 a b c = noisy3 b a c ∧ noisy3 a b c = noisy3 a c b ∧
    maj3 (~~~a) (~~~b) (~~~c) = ~~~(maj3 a b c) ∧ noisy3 (~~~a) (~~~b) (~~~c) = noisy3 a b c

/-- Spec 41 R114: VOTE in a window that exists (I is at most 23 in every reachable state, 10 R21), with what holds on
entry: the window's bit is 0, so the vote writes exactly the majority there; CLK is 1; NCNT is at most I. -/
def Obligations.VoteWritesTheWindowsBit : Prop :=
  decode (.phase 0x6#4) = .vote ∧
  (∀ s : State, s.i.toNat ≤ 23 → exec .vote s = .next { s with
      acc := s.acc |||
        ((if 2 ≤ s.s1.toNat + s.s2.toNat + s.s3.toNat then 1#24 else 0#24) <<< (23 - s.i.toNat))
      ncnt := if s.s1 = s.s2 ∧ s.s2 = s.s3 then s.ncnt else s.ncnt + 1#5
      phase := 0x7#4 }) ∧
  (∀ s : State, Safety.Inv s → s.phase = 0x6#4 →
    s.i.toNat ≤ 23 ∧ s.acc.getLsbD (23 - s.i.toNat) = false ∧ s.clk = 1#1 ∧ s.ncnt.toNat ≤ s.i.toNat)

/-- VOTE at a window index from 24 to 31, which no run reaches: ACC takes a free value (log entry 12), whatever it is, and
every other effect of spec 41 R114 happens. -/
def Obligations.VoteBeyondTheLastWindowOnlyLeavesAccFree : Prop :=
  ∀ s : State, 24 ≤ s.i.toNat → ∃ a : BitVec 24, exec .vote s = .next { s with
      acc := a
      ncnt := if s.s1 = s.s2 ∧ s.s2 = s.s3 then s.ncnt else s.ncnt + 1#5
      phase := 0x7#4 }

/-- Spec 41 R115: FALL, with CLK 1 on entry (10 R38). -/
def Obligations.FallEndsTheHighTime : Prop :=
  decode (.phase 0x7#4) = .fall ∧
  (∀ s : State, exec .fall s = .next { s with clk := 0#1, trace := s.trace ++ [.clkSet 0#1], phase := 0x8#4 }) ∧
  (∀ s : State, Safety.Inv s → s.phase = 0x7#4 → s.clk = 1#1)

/-- Spec 41 R116: WAIT_L. -/
def Obligations.WaitLGoesToTheNextWindowOrTheGainPulses : Prop :=
  decode (.phase 0x8#4) = .waitL ∧
  (∀ s : State, s.i.toNat < 23 → exec .waitL s = .next { s with
      i := s.i + 1#5, trace := s.trace ++ [.wait s.params.tL], phase := 0x3#4 }) ∧
  (∀ s : State, 23 ≤ s.i.toNat → exec .waitL s = .next { s with
      trace := s.trace ++ [.wait s.params.tL], phase := 0x9#4 })

/-! ## Gain pulses and result (spec 42) -/

/-- Spec 42 R130: G_RISE, with CLK 0 on entry, reached only from WAIT_L after window 23 or from G_WAIT_L with pulses
left. -/
def Obligations.GRiseStartsAGainPulse : Prop :=
  decode (.phase 0x9#4) = .gRise ∧
  (∀ s : State, exec .gRise s = .next { s with clk := 1#1, trace := s.trace ++ [.clkSet 1#1], phase := 0xA#4 }) ∧
  (∀ s : State, Safety.Inv s → s.phase = 0x9#4 → s.clk = 0#1 ∧ s.g.toNat < s.gain.toNat) ∧
  (∀ s t : State, Safety.Inv s → step s = .next t → t.phase = 0x9#4 →
    (s.phase = 0x8#4 ∧ s.i = 23#5) ∨ (s.phase = 0xD#4 ∧ s.g.toNat < s.gain.toNat))

/-- Spec 42 R131: G_WAIT_H; CLK stays 1. -/
def Obligations.GWaitHKeepsTheClockHigh : Prop :=
  decode (.phase 0xA#4) = .gWaitH ∧
  (∀ s : State, exec .gWaitH s = .next { s with trace := s.trace ++ [.wait s.params.tL], phase := 0xB#4 }) ∧
  (∀ s : State, Safety.Inv s → s.phase = 0xA#4 → s.clk = 1#1)

/-- Spec 42 R132: G_FALL, with a count that never wraps. -/
def Obligations.GFallCountsThePulse : Prop :=
  decode (.phase 0xB#4) = .gFall ∧
  (∀ s : State, exec .gFall s = .next { s with
      clk := 0#1, g := s.g + 1#2, trace := s.trace ++ [.clkSet 0#1]
      phase := if s.g + 1#2 = s.gain then 0xC#4 else 0xD#4 }) ∧
  (∀ s : State, Safety.Inv s → s.phase = 0xB#4 →
    (s.g + 1#2).toNat = s.g.toNat + 1 ∧ s.g.toNat + 1 ≤ s.gain.toNat ∧ s.gain.toNat ≤ 3)

/-- Spec 42 R133: CS_OFF, right after the last falling edge. -/
def Obligations.CsOffLeavesTheCriticalSection : Prop :=
  decode (.phase 0xC#4) = .csOff ∧
  (∀ s : State, exec .csOff s = .next { s with cs := 0#1, trace := s.trace ++ [.csSet 0#1], phase := 0xD#4 }) ∧
  (∀ s : State, Safety.Inv s → s.phase = 0xC#4 → s.cs = 1#1 ∧ s.clk = 0#1 ∧ s.g = s.gain) ∧
  (∀ s t : State, step s = .next t → t.phase = 0xC#4 → s.phase = 0xB#4 ∧ Safety.newEvents s t = [.clkSet 0#1])

/-- Spec 42 R134: G_WAIT_L; CLK stays 0, and CS is 1 exactly while pulses are left. -/
def Obligations.GWaitLGoesToTheNextPulseOrToSext : Prop :=
  decode (.phase 0xD#4) = .gWaitL ∧
  (∀ s : State, s.g.toNat < s.gain.toNat → exec .gWaitL s = .next { s with
      trace := s.trace ++ [.wait s.params.tL], phase := 0x9#4 }) ∧
  (∀ s : State, s.gain.toNat ≤ s.g.toNat → exec .gWaitL s = .next { s with
      trace := s.trace ++ [.wait s.params.tL], phase := 0xE#4 }) ∧
  (∀ s : State, Safety.Inv s → s.phase = 0xD#4 →
    s.clk = 0#1 ∧ (s.cs = 1#1 ↔ s.g.toNat < s.gain.toNat))

/-- Spec 42 R136: `sext_32`, its bits and its signed value. -/
def Obligations.SignExtensionKeepsTheSignedValue : Prop :=
  ∀ a : BitVec 24,
    sext32 a = (if a.getLsbD 23 then a.zeroExtend 32 ||| 0xFF000000#32 else a.zeroExtend 32) ∧
    (∀ k, 24 ≤ k → k < 32 → (sext32 a).getLsbD k = a.getLsbD 23) ∧
    (∀ k, k < 24 → (sext32 a).getLsbD k = a.getLsbD k) ∧
    (sext32 a).toInt = a.toInt ∧ -8388608 ≤ (sext32 a).toInt ∧ (sext32 a).toInt ≤ 8388607

/-- Spec 42 R137: SEXT, outside the critical section, whatever NCNT is. -/
def Obligations.SextWidensTheAccumulator : Prop :=
  decode (.phase 0xE#4) = .sext ∧
  (∀ s : State, exec .sext s = .next { s with val := s.acc.signExtend 32, phase := 0xF#4 }) ∧
  (∀ s : State, Safety.Inv s → s.phase = 0xE#4 → s.cs = 0#1)

/-- Spec 42 R138: COMPLETE writes all five result registers; the value is the sign-extended word. -/
def Obligations.CompleteWritesTheSampleResult : Prop :=
  decode (.phase 0xF#4) = .complete ∧
  (∀ s : State, exec .complete s = .next { s with
      resStatus := 0b10#2, resValue := s.val, resNoisy := if 0 < s.ncnt.toNat then 1#1 else 0#1, resNcnt := s.ncnt
      resDiscard := s.disc
      trace := s.trace ++ [.result 0b10#2 s.val (if 0 < s.ncnt.toNat then 1#1 else 0#1) s.ncnt s.disc]
      phase := 0x0#4 }) ∧
  (∀ s t : State, step s = .next t → s.inp.rst = 0#1 → s.phase = 0xF#4 →
    s.busy = true ∧ s.cmdReady = false ∧ t.busy = false ∧ (t.inp.rst = 0#1 → t.cmdReady = true)) ∧
  (∀ s : State, Safety.Inv s → s.phase = 0xF#4 → s.val = s.acc.signExtend 32 ∧ s.cs = 0#1)

/-! ## Reset, configuration and the step (spec 30, 60, 70) -/

/-- Spec 70, section 1: a step with `rst = 1`, from any state and whatever is offered. The block's registers take
their reset values, GAIN that of `cfg_gain`; the trace says which lines fell; no result is written and no command accepted.
Then the environment drives the ports, and when it releases `rst` the block is ready. That the step completes and latches 0
when `cfg_gain` is 0, the refusal coming later, is the model's reading (DEDUCED, log entry 3), and so is that it keeps the
parameters and the trace so far (DEDUCED, log entry 21). -/
def Obligations.ResetStepWritesEveryElement : Prop :=
  ∀ s : State, s.inp.rst = 1#1 →
    s.outputs.cmdReady = 0#1 ∧
    ∃ t, step s = .next t ∧
      t.phase = 0x0#4 ∧ t.i = 0#5 ∧ t.j = 0#2 ∧ t.g = 0#2 ∧ t.disc = 0#1 ∧ t.acc = 0#24 ∧
      t.s1 = 0#1 ∧ t.s2 = 0#1 ∧ t.s3 = 0#1 ∧ t.ncnt = 0#5 ∧ t.val = 0#32 ∧ t.clk = 0#1 ∧ t.cs = 0#1 ∧
      t.resStatus = 0b00#2 ∧ t.resValue = 0#32 ∧ t.resNoisy = 0#1 ∧ t.resNcnt = 0#5 ∧ t.resDiscard = 0#1 ∧
      t.gain = s.inp.cfgGain ∧ t.params = s.params ∧
      t.outputs.busy = 0#1 ∧ (t.inp.rst = 0#1 → t.outputs.cmdReady = 1#1) ∧
      t.trace = s.trace ++
        ((if s.clk = 1#1 then [Event.clkSet 0#1] else []) ++ (if s.cs = 1#1 then [Event.csSet 0#1] else []) ++
          [Event.reset])

/-- Spec 70 R180: the launch state holds the reset values; out of reset `cmd_ready` is 1 and `busy` 0. GAIN and the input
ports at launch are the model's choice (log entries 4 and 5) and not stated here. -/
def Obligations.LaunchStateHoldsTheResetValues : Prop :=
  State.reset.phase = 0x0#4 ∧ State.reset.i = 0#5 ∧ State.reset.j = 0#2 ∧ State.reset.g = 0#2 ∧
  State.reset.disc = 0#1 ∧ State.reset.acc = 0#24 ∧ State.reset.s1 = 0#1 ∧ State.reset.s2 = 0#1 ∧
  State.reset.s3 = 0#1 ∧ State.reset.ncnt = 0#5 ∧ State.reset.val = 0#32 ∧ State.reset.clk = 0#1 ∧
  State.reset.cs = 0#1 ∧ State.reset.resStatus = 0b00#2 ∧ State.reset.resValue = 0#32 ∧
  State.reset.resNoisy = 0#1 ∧ State.reset.resNcnt = 0#5 ∧ State.reset.resDiscard = 0#1 ∧
  (∀ p : PortInputs, p.rst = 0#1 →
    State.outputs { State.reset with inp := p } = ⟨1#1, 0#1, 0#1, 0#1, 0#2, 0#32, 0#1, 0#5, 0#1⟩) ∧
  (∀ p : PortInputs, p.rst = 1#1 → (State.outputs { State.reset with inp := p }).cmdReady = 0#1)

/-- Spec 30 R75: a gain of 0 is not well formed and such an instance is given no steps. That the refusal comes with the
first step out of reset, and not in the reset step that latched it, is the model's reading (log entry 3). -/
def Obligations.AnInvalidGainGetsNoSteps : Prop :=
  (∀ gain : BitVec 2, gainWellFormed gain = false ↔ gain = 0#2) ∧
  (∀ s : State, s.inp.rst = 0#1 → s.gain = 0#2 → step s = .refused .invalidGain) ∧
  (∀ s : State, s.inp.rst = 1#1 → s.inp.cfgGain = 0#2 → ∃ t, step s = .next t ∧ t.gain = 0#2)

/-- Spec 60 R173: a step is a next state, or the refusal of an invalid gain; an admitted configuration has no fault and no
stuck state. -/
def Obligations.EveryAdmittedStateHasAStep : Prop :=
  (∀ s : State, (∃ t, step s = .next t) ∨ (gainWellFormed s.gain = false ∧ step s = .refused .invalidGain)) ∧
  (∀ s : State, gainWellFormed s.gain = true → ∃ t, step s = .next t)

/-- A step out of reset of an admitted instance runs the fetched instruction, and around it the environment's move only
sets the input ports, the script and the draw counter (log entries 1 and 9). -/
def Obligations.StepRunsTheFetchedInstruction : Prop :=
  ∀ s : State, s.inp.rst = 0#1 → gainWellFormed s.gain = true →
    (decode s.fetchCode).wellFormed = true ∧
    ∃ b, exec (decode s.fetchCode) s = .next b ∧
      step s = .next { b with
        inp := s.nextInputs, script := s.script.tail, tick := if s.script = [] then s.tick + 1 else s.tick }

/-- Spec 40 R90, over every step: a command is accepted exactly when it is offered, `rst = 0` and PHASE is IDLE, at most
one per step and the block is busy after it; in every other step the offer changes nothing of the block and stays (on the port it is the model that keeps it, log
entry 2). -/
def Obligations.CommandsWaitUntilTheBlockIsReady : Prop :=
  ∀ s t : State, step s = .next t →
    ((∃ d, Event.accept d ∈ Safety.newEvents s t) ↔
      (s.inp.cmdValid = 1#1 ∧ s.inp.rst = 0#1 ∧ s.phase = 0x0#4)) ∧
    (s.inp.cmdValid = 1#1 → s.inp.rst = 0#1 → s.phase = 0x0#4 →
      Safety.newEvents s t = [.accept s.inp.cmdDiscard] ∧ t.busy = true) ∧
    (s.inp.cmdValid = 1#1 → ¬(s.inp.rst = 0#1 ∧ s.phase = 0x0#4) →
      t.inp.cmdValid = 1#1 ∧ t.inp.cmdDiscard = s.inp.cmdDiscard ∧
      ∃ u, step { s with inp := { s.inp with cmdValid := 0#1 } } = .next u ∧ Safety.sameBlock t u)

/-- Spec 60 R165: reset wins, a command offered while busy is not accepted, NotReady and noisy never coincide. -/
def Obligations.SimultaneousEventsResolve : Prop :=
  (∀ s t : State, step s = .next t → s.inp.rst = 1#1 →
    t.phase = 0x0#4 ∧ (∀ d, Event.accept d ∉ Safety.newEvents s t) ∧ Event.reset ∈ Safety.newEvents s t) ∧
  (∀ s t : State, step s = .next t → s.busy = true → ∀ d, Event.accept d ∉ Safety.newEvents s t) ∧
  (∀ s : State, Safety.Inv s → s.resStatus = 0b01#2 → s.resNoisy = 0#1 ∧ s.resNcnt = 0#5)

/-- Spec 10 R37: the output ports. -/
def Obligations.OutputPortsFollowTheState : Prop :=
  ∀ s : State,
    (s.outputs.cmdReady = 1#1 ↔ (s.phase = 0x0#4 ∧ s.inp.rst = 0#1)) ∧ (s.outputs.busy = 1#1 ↔ s.phase ≠ 0x0#4) ∧
    s.outputs.clkOut = s.clk ∧ s.outputs.csActive = s.cs ∧ s.outputs.resStatus = s.resStatus ∧
    s.outputs.resValue = s.resValue ∧ s.outputs.resNoisy = s.resNoisy ∧ s.outputs.resNcnt = s.resNcnt ∧
    s.outputs.resDiscard = s.resDiscard

/-- A bus read of the results gives the ports, and stops on the status code no rule writes (I12; log entry 18). -/
def Obligations.ABusReadStopsOnTheBrokenStatus : Prop :=
  ∀ s : State,
    (s.resStatus = 0b11#2 → s.readResults = .fault .brokenStatus) ∧
    (s.resStatus ≠ 0b11#2 → s.readResults = .next s.outputs)

/-! ## Invariants and whole-machine rules (spec 10) -/

/-- The invariant holds in every launch state, whatever the parameters, the gain and the ports (spec 70 R186), and so at
the model's own launch state. -/
def Obligations.InvariantHoldsAtLaunch : Prop :=
  (∀ s : State, Safety.Launch s → Safety.Inv s) ∧ Safety.Launch State.reset

/-- Spec 10 R38: every step keeps the seven items, with what makes them inductive (10 R21, R23, 40 R91, 42 R137) and what
holds of the result registers (10 R31 to R34). -/
def Obligations.EveryStepKeepsTheInvariant : Prop :=
  ∀ s t : State, Safety.Inv s → step s = .next t → Safety.Inv t

/-- Spec 30 R86: `RES_STATUS = 0b11` is never written, from any state. -/
def Obligations.NoStepWritesTheUnusedStatus : Prop :=
  ∀ s t : State, s.resStatus ≠ 0b11#2 → step s = .next t → t.resStatus ≠ 0b11#2

/-- Spec 10 R36: out of reset, the result registers change only in CHECK on the NotReady path and in COMPLETE, all five in
that one step. -/
def Obligations.ResultsChangeOnlyWhenAReadEnds : Prop :=
  ∀ s t : State, step s = .next t → s.inp.rst = 0#1 →
    (s.phase = 0x1#4 → s.inp.dataIn = 1#1 → Safety.results t = (0b01#2, 0#32, 0#1, 0#5, s.disc) ∧ t.phase = 0x0#4) ∧
    (s.phase = 0xF#4 →
      Safety.results t = (0b10#2, s.val, (if 0 < s.ncnt.toNat then 1#1 else 0#1), s.ncnt, s.disc) ∧ t.phase = 0x0#4) ∧
    (¬(s.phase = 0x1#4 ∧ s.inp.dataIn = 1#1) → s.phase ≠ 0xF#4 → Safety.results t = Safety.results s)

/-- Spec 20 R66: the step that makes a busy block idle, out of reset, is the step that writes the results. -/
def Obligations.BusyFallsWithTheResults : Prop :=
  ∀ s t : State, Safety.Inv s → step s = .next t → s.inp.rst = 0#1 → s.busy = true → t.busy = false →
    Event.result t.resStatus t.resValue t.resNoisy t.resNcnt t.resDiscard ∈ Safety.newEvents s t ∧ t.resDiscard = s.disc

/-- Spec 10 R29: only RISE, FALL, G_RISE, G_FALL and reset write CLK, and in IDLE it is 0. -/
def Obligations.OnlyFourPhasesAndResetDriveTheClock : Prop :=
  (∀ s t : State, step s = .next t → t.clk ≠ s.clk →
    s.inp.rst = 1#1 ∨ s.phase = 0x3#4 ∨ s.phase = 0x7#4 ∨ s.phase = 0x9#4 ∨ s.phase = 0xB#4) ∧
  (∀ s t : State, step s = .next t → s.inp.rst = 1#1 → t.clk = 0#1) ∧
  (∀ s : State, Safety.Inv s → s.phase = 0x0#4 → s.clk = 0#1)

/-- Spec 20 R51: every `ClkSet` event is a transition of CLK to the level it names, and a step emits at most one. -/
def Obligations.EveryClockEventIsATransition : Prop :=
  ∀ s t : State, Safety.Inv s → step s = .next t →
    (∀ v, Event.clkSet v ∈ Safety.newEvents s t → s.clk ≠ v ∧ t.clk = v) ∧
    Safety.clkSets (Safety.newEvents s t) ≤ 1 ∧
    (t.clk ≠ s.clk → Event.clkSet t.clk ∈ Safety.newEvents s t)

/-- Spec 20 R57: only CS_ON (to 1), CS_OFF (to 0) and reset (to 0) write CS, each with its event. -/
def Obligations.OnlyCsOnCsOffAndResetWriteCs : Prop :=
  ∀ s t : State, step s = .next t →
    (t.cs ≠ s.cs → Event.csSet t.cs ∈ Safety.newEvents s t) ∧
    (∀ v, Event.csSet v ∈ Safety.newEvents s t → t.cs = v ∧
      ((s.inp.rst = 1#1 ∧ v = 0#1) ∨ (s.inp.rst = 0#1 ∧ s.phase = 0x2#4 ∧ v = 1#1) ∨
        (s.inp.rst = 0#1 ∧ s.phase = 0xC#4 ∧ v = 0#1)))

/-- Spec 10, section 1 and 70, section 1: no step out of reset writes GAIN, a reset step latches it from `cfg_gain`. That it
latches 0 too, the refusal coming later, is the model's reading (DEDUCED, log entry 3), and so are that the parameters are
a field of State (DESIGN CHOICE, log entry 7) and that a reset step keeps them (DEDUCED, log entry 21). -/
def Obligations.GainIsHeldUntilTheNextReset : Prop :=
  ∀ s t : State, step s = .next t →
    (s.inp.rst = 0#1 → t.gain = s.gain) ∧ (s.inp.rst = 1#1 → t.gain = s.inp.cfgGain) ∧ t.params = s.params

/-- Spec 10 R25: ACC is cleared by acceptance and reset, VOTE sets at most the bit of its window, and nothing else writes
it. -/
def Obligations.OnlyAcceptanceVoteAndResetWriteTheAccumulator : Prop :=
  ∀ s t : State, Safety.Inv s → step s = .next t →
    (s.inp.rst = 1#1 → t.acc = 0#24) ∧
    (s.inp.rst = 0#1 → s.phase = 0x0#4 → s.inp.cmdValid = 1#1 → t.acc = 0#24) ∧
    (s.inp.rst = 0#1 → s.phase = 0x6#4 → ∀ k, k < 24 → t.acc.getLsbD k =
      if k = 23 - s.i.toNat then decide (2 ≤ s.s1.toNat + s.s2.toNat + s.s3.toNat) else s.acc.getLsbD k) ∧
    (s.inp.rst = 0#1 → s.phase ≠ 0x6#4 → ¬(s.phase = 0x0#4 ∧ s.inp.cmdValid = 1#1) → t.acc = s.acc)

/-- Spec 20 R50: a step only appends to the trace. -/
def Obligations.TheTraceOnlyGrows : Prop :=
  ∀ s t : State, step s = .next t →
    t.trace = s.trace ++ Safety.newEvents s t ∧ (Safety.newEvents s t).length ≤ 3

/-- Spec 20 R52: DATA is read in CHECK and in SAMPLE and nowhere else: in every other step its level makes no
difference. -/
def Obligations.DataIsReadOnlyInCheckAndSample : Prop :=
  ∀ (s : State) (v : BitVec 1), s.phase ≠ 0x1#4 → s.phase ≠ 0x5#4 →
    step { s with inp := { s.inp with dataIn := v } } = step s

/-- Spec 30 R70, 40 R93: READ and SETUP differ only in the command word and where it is copied. -/
def Obligations.ReadAndSetupDifferOnlyInTheDiscardBit : Prop :=
  ∀ s t s' : State, Safety.sameButDiscard s t → step s = .next s' →
    ∃ t', step t = .next t' ∧ Safety.sameButDiscard s' t'

/-- Spec 40 R91, 95 W11: no hidden state is carried between reads. Whatever the work registers and results were, two idle
blocks that accept the same command go on alike; and two alike reads stay alike, emit the same events, and end with the
same results. -/
def Obligations.NoHiddenStateBetweenReads : Prop :=
  (∀ s t s' : State, s.phase = 0x0#4 → t.phase = 0x0#4 → s.clk = t.clk → s.cs = t.cs → s.params = t.params →
    s.gain = t.gain → s.inp = t.inp → s.script = t.script → s.tick = t.tick → s.inp.rst = 0#1 → s.inp.cmdValid = 1#1 →
    step s = .next s' →
    ∃ t', step t = .next t' ∧ Safety.sameRead s' t' ∧ Safety.newEvents s s' = Safety.newEvents t t') ∧
  (∀ s t s' : State, Safety.sameRead s t → step s = .next s' →
    ∃ t', step t = .next t' ∧ Safety.sameRead s' t' ∧ Safety.newEvents s s' = Safety.newEvents t t' ∧
      (s.phase ≠ 0x0#4 → s'.phase = 0x0#4 → Safety.results s' = Safety.results t'))

/-! ## Whole reads (spec 20 R64, 42 R135 and R139, 70 R195 and R196)

The levels of the ports during a read are those of `script`, whatever they are but for `rst` and the readiness level: the
form in which the model holds them is log entry 1. -/

/-- Spec 42 R139, step by step: from any phase of a full read each step brings the end one step nearer. -/
def Obligations.EveryStepOfAReadBringsItsEndNearer : Prop :=
  ∀ s t : State, Safety.Inv s → step s = .next t → s.inp.rst = 0#1 → s.busy = true →
    (s.phase = 0x1#4 → s.inp.dataIn = 0#1) → Safety.stepsLeft t + 1 = Safety.stepsLeft s

/-- Spec 42 R135, step by step: the CLK transitions emitted and those still to come add up. -/
def Obligations.ClockTransitionsOfAReadAddUp : Prop :=
  ∀ s t : State, Safety.Inv s → step s = .next t → s.inp.rst = 0#1 → s.busy = true →
    (s.phase = 0x1#4 → s.inp.dataIn = 0#1) →
    Safety.clkSets (Safety.newEvents s t) + Safety.clkSetsLeft t = Safety.clkSetsLeft s

/-- Spec 42 R139: a read that ends NotReady takes 2 steps, a full read exactly `246 + 4*GAIN`, whatever DATA does in it. -/
def Obligations.ReadsTakeAFixedNumberOfSteps : Prop :=
  (∀ (s : State) (p : PortInputs) (rest : List PortInputs), s.phase = 0x0#4 → gainWellFormed s.gain = true →
    s.inp.rst = 0#1 → s.inp.cmdValid = 1#1 → s.script = p :: rest → p.rst = 0#1 → p.dataIn = 1#1 →
    (∃ u, step s = .next u ∧ u.busy = true) ∧ ∃ t, Safety.run 2 s = .next t ∧ t.phase = 0x0#4 ∧ t.resStatus = 0b01#2) ∧
  (∀ (s : State) (ps : List PortInputs), Safety.FullRead s ps →
    (∀ k, 0 < k → k < 246 + 4 * s.gain.toNat → ∃ u, Safety.run k s = .next u ∧ u.busy = true) ∧
    ∃ t, Safety.run (246 + 4 * s.gain.toNat) s = .next t ∧ t.phase = 0x0#4 ∧ t.resStatus = 0b10#2)

/-- Spec 41 R101, 60 R161, 40 R92: a read that finds DATA at 1 ends NotReady: no CLK transition, CS not asserted, the
result registers and the trace as the rules say. -/
def Obligations.ANotReadyReadTouchesNoLine : Prop :=
  ∀ (s : State) (p : PortInputs) (rest : List PortInputs), s.phase = 0x0#4 → gainWellFormed s.gain = true →
    s.inp.rst = 0#1 → s.inp.cmdValid = 1#1 → s.script = p :: rest → p.rst = 0#1 → p.dataIn = 1#1 →
    ∃ t, Safety.run 2 s = .next t ∧ t.clk = s.clk ∧ t.cs = s.cs ∧
      Safety.results t = (0b01#2, 0#32, 0#1, 0#5, s.inp.cmdDiscard) ∧
      t.trace = s.trace ++ [.accept s.inp.cmdDiscard, .ready 1#1, .result 0b01#2 0#32 0#1 0#5 s.inp.cmdDiscard]

/-- Spec 40 R92, R93, 30 R76, 42 R136 to R138: the outcome of a full read. The value is the signed value of the word whose
bit `23 - w` is the majority of window `w`; the count is that of the windows that are not unanimous; the discard bit is the
command word. -/
def Obligations.AFullReadReturnsTheVotedWord : Prop :=
  ∀ (s : State) (ps : List PortInputs), Safety.FullRead s ps →
    ∃ t word, Safety.run (246 + 4 * s.gain.toNat) s = .next t ∧
      (∀ w, w < 24 → word.getLsbD (23 - w) =
        decide (2 ≤ (Safety.samplesOf ps w).1.toNat + (Safety.samplesOf ps w).2.1.toNat +
          (Safety.samplesOf ps w).2.2.toNat)) ∧
      t.acc = word ∧ t.resStatus = 0b10#2 ∧ t.resValue.toInt = BitVec.toInt (word : BitVec 24) ∧
      t.resNcnt.toNat = Safety.noisyWindows (Safety.samplesOf ps) ∧
      (t.resNoisy = 1#1 ↔ 0 < Safety.noisyWindows (Safety.samplesOf ps)) ∧ t.resDiscard = s.inp.cmdDiscard

/-- Spec 20 R64: the events of a full read, in order. -/
def Obligations.AFullReadEmitsTheEventsInOrder : Prop :=
  ∀ (s : State) (ps : List PortInputs), Safety.FullRead s ps →
    ∃ t, Safety.run (246 + 4 * s.gain.toNat) s = .next t ∧
      t.trace = s.trace ++ [.accept s.inp.cmdDiscard] ++
        Safety.lineEvents s.params s.gain.toNat (Safety.samplesOf ps) ++
        [.result t.resStatus t.resValue t.resNoisy t.resNcnt t.resDiscard]

/-- Spec 42 R135: a full read makes `24 + GAIN` rising and as many falling transitions, a NotReady read none. -/
def Obligations.AFullReadMakes48Plus2GainTransitions : Prop :=
  (∀ (s : State) (ps : List PortInputs), Safety.FullRead s ps →
    ∃ t, Safety.run (246 + 4 * s.gain.toNat) s = .next t ∧
      (Safety.newEvents s t).count (.clkSet 1#1) = 24 + s.gain.toNat ∧
      (Safety.newEvents s t).count (.clkSet 0#1) = 24 + s.gain.toNat ∧
      Safety.clkSets (Safety.newEvents s t) = 48 + 2 * s.gain.toNat) ∧
  (∀ (s : State) (p : PortInputs) (rest : List PortInputs), s.phase = 0x0#4 → gainWellFormed s.gain = true →
    s.inp.rst = 0#1 → s.inp.cmdValid = 1#1 → s.script = p :: rest → p.rst = 0#1 → p.dataIn = 1#1 →
    ∃ t, Safety.run 2 s = .next t ∧ Safety.clkSets (Safety.newEvents s t) = 0)

/-- Spec 70 R195, R196: the nominal waits of a full read, and the part of them waited with `cs_active = 1`. -/
def Obligations.AFullReadWaitsItsNominalTime : Prop :=
  ∀ (s : State) (ps : List PortInputs), Safety.FullRead s ps →
    ∃ t, Safety.run (246 + 4 * s.gain.toNat) s = .next t ∧
      Safety.waitSum (Safety.newEvents s t) =
        24 * (3 * s.params.tS + s.params.tL) + 2 * s.gain.toNat * s.params.tL ∧
      Safety.csWaitSum s.cs (Safety.newEvents s t) =
        24 * (3 * s.params.tS + s.params.tL) + (2 * s.gain.toNat - 1) * s.params.tL
end

