-- ==== Sys2Proof/Laws/Decode.lean ====
section
/-! SUPPORT. The decoder on each word of the tables of spec 30 R70 and R80, and the widths. -/

namespace Sys2Proof

@[simp] theorem decode_cmd_zero : decode (.cmd 0#1) = .read := rfl
@[simp] theorem decode_cmd_one : decode (.cmd 1#1) = .setup := rfl
@[simp] theorem decode_idle : decode (.phase 0x0#4) = .idle := rfl
@[simp] theorem decode_check : decode (.phase 0x1#4) = .check := rfl
@[simp] theorem decode_csOn : decode (.phase 0x2#4) = .csOn := rfl
@[simp] theorem decode_rise : decode (.phase 0x3#4) = .rise := rfl
@[simp] theorem decode_waitS : decode (.phase 0x4#4) = .waitS := rfl
@[simp] theorem decode_sample : decode (.phase 0x5#4) = .sample := rfl
@[simp] theorem decode_vote : decode (.phase 0x6#4) = .vote := rfl
@[simp] theorem decode_fall : decode (.phase 0x7#4) = .fall := rfl
@[simp] theorem decode_waitL : decode (.phase 0x8#4) = .waitL := rfl
@[simp] theorem decode_gRise : decode (.phase 0x9#4) = .gRise := rfl
@[simp] theorem decode_gWaitH : decode (.phase 0xA#4) = .gWaitH := rfl
@[simp] theorem decode_gFall : decode (.phase 0xB#4) = .gFall := rfl
@[simp] theorem decode_csOff : decode (.phase 0xC#4) = .csOff := rfl
@[simp] theorem decode_gWaitL : decode (.phase 0xD#4) = .gWaitL := rfl
@[simp] theorem decode_sext : decode (.phase 0xE#4) = .sext := rfl
@[simp] theorem decode_complete : decode (.phase 0xF#4) = .complete := rfl

/-- A one-bit word is 0 or 1. -/
theorem bit_cases (b : BitVec 1) : b = 0#1 ∨ b = 1#1 := by revert b; decide

/-- A one-bit word that is not 1 is 0. -/
theorem bit_eq_zero_of_ne_one {b : BitVec 1} (h : b ≠ 1#1) : b = 0#1 := (bit_cases b).resolve_right h

/-- The sixteen phase codes are all there are (spec 30 R81). -/
theorem phase_cases (p : BitVec 4) :
    p = 0x0#4 ∨ p = 0x1#4 ∨ p = 0x2#4 ∨ p = 0x3#4 ∨ p = 0x4#4 ∨ p = 0x5#4 ∨ p = 0x6#4 ∨ p = 0x7#4 ∨
    p = 0x8#4 ∨ p = 0x9#4 ∨ p = 0xA#4 ∨ p = 0xB#4 ∨ p = 0xC#4 ∨ p = 0xD#4 ∨ p = 0xE#4 ∨ p = 0xF#4 := by
  revert p; decide

end Sys2Proof
end

