-- ==== Sys2Proof/Laws/Filter.lean ====
section
/-! SUPPORT. What the majority filter's and the operands' functions give, one lemma each. -/

namespace Sys2Proof.Machine

/-- One vote adds at most 1 to a count that is not at its top. -/
theorem countNoisy_toNat_le {n : BitVec 5} (h : n.toNat ≤ 30) (a b c : BitVec 1) :
    (countNoisy n a b c).toNat ≤ n.toNat + 1 := by
  unfold countNoisy
  split
  · rw [BitVec.toNat_add]; simp; omega
  · omega

/-- The count after one vote, as a number. -/
theorem countNoisy_toNat {n : BitVec 5} (h : n.toNat ≤ 30) (a b c : BitVec 1) :
    (countNoisy n a b c).toNat = n.toNat + (noisy3 a b c).toNat := by
  unfold countNoisy
  rcases bit_cases (noisy3 a b c) with hz | hz <;> simp [hz]; omega

/-- The flag says whether the count is positive (spec 10 R33). -/
theorem noisyFlag_eq_one_iff (n : BitVec 5) : noisyFlag n = 1#1 ↔ 0 < n.toNat := by
  unfold noisyFlag; split <;> simp_all

/-- The bits of ACC after a vote of a window that exists: the window's bit is ORed in, no other changes. -/
theorem setWindowBit_getLsbD {acc : BitVec 24} {i : BitVec 5} (hi : i.toNat ≤ 23) (m : BitVec 1) (k : Nat) :
    (setWindowBit acc i m).getLsbD k = (acc.getLsbD k || (decide (k = 23 - i.toNat) && m.getLsbD 0)) := by
  simp only [setWindowBit, hi, if_true, windowBit, BitVec.getLsbD_or, BitVec.getLsbD_shiftLeft]
  congr 1
  by_cases hk : k = 23 - i.toNat
  · subst hk; simp; omega
  · rcases Nat.lt_or_ge k (23 - i.toNat) with h | h
    · simp [h, hk]
    · have : m.getLsbD (k - (23 - i.toNat)) = false := BitVec.getLsbD_of_ge _ _ (by omega)
      simp [hk, this]

/-- The bits of `0xFF000000`. -/
theorem signMask_getLsbD (k : Nat) (hk : k < 32) : (0xFF000000#32).getLsbD k = decide (24 ≤ k) := by
  revert k; decide

/-- `sext_32` is the sign extension of bit vectors. -/
theorem sext32_eq_signExtend (a : BitVec 24) : sext32 a = a.signExtend 32 := by
  apply BitVec.eq_of_getLsbD_eq
  intro k hk
  rw [BitVec.getLsbD_signExtend, BitVec.msb_eq_getLsbD_last]
  unfold sext32
  cases ha : a.getLsbD 23
  · rw [if_neg (by simp), BitVec.getLsbD_setWidth]
    rcases Nat.lt_or_ge k 24 with h | h
    · simp [h, hk]
    · simp [hk, Nat.not_lt.mpr h, BitVec.getLsbD_of_ge a k h]
  · rw [if_pos rfl, BitVec.getLsbD_or, BitVec.getLsbD_setWidth, signMask_getLsbD k hk]
    rcases Nat.lt_or_ge k 24 with h | h
    · simp [h, hk]
    · simp [hk, h]

/-- The low 24 bits of a sign-extended word are the word. -/
theorem sext32_extract (a : BitVec 24) : (sext32 a).extractLsb' 0 24 = a := by
  rw [sext32_eq_signExtend]
  apply BitVec.eq_of_getLsbD_eq
  intro k hk
  rw [BitVec.getLsbD_extractLsb', BitVec.getLsbD_signExtend]
  simp [hk, show k < 32 by omega]

end Sys2Proof.Machine
end

