-- ==== Sys2Proof/Laws/State.lean ====
section
/-! SUPPORT. What each named update of State does to each field: one lemma per field and update, true by rfl. -/

namespace Sys2Proof.Machine

/-! ## `State.emit` -/

@[simp] theorem State.emit_params (s : State) (e : Event) : (s.emit e).params = s.params := rfl
@[simp] theorem State.emit_gain (s : State) (e : Event) : (s.emit e).gain = s.gain := rfl
@[simp] theorem State.emit_phase (s : State) (e : Event) : (s.emit e).phase = s.phase := rfl
@[simp] theorem State.emit_i (s : State) (e : Event) : (s.emit e).i = s.i := rfl
@[simp] theorem State.emit_j (s : State) (e : Event) : (s.emit e).j = s.j := rfl
@[simp] theorem State.emit_g (s : State) (e : Event) : (s.emit e).g = s.g := rfl
@[simp] theorem State.emit_disc (s : State) (e : Event) : (s.emit e).disc = s.disc := rfl
@[simp] theorem State.emit_acc (s : State) (e : Event) : (s.emit e).acc = s.acc := rfl
@[simp] theorem State.emit_s1 (s : State) (e : Event) : (s.emit e).s1 = s.s1 := rfl
@[simp] theorem State.emit_s2 (s : State) (e : Event) : (s.emit e).s2 = s.s2 := rfl
@[simp] theorem State.emit_s3 (s : State) (e : Event) : (s.emit e).s3 = s.s3 := rfl
@[simp] theorem State.emit_ncnt (s : State) (e : Event) : (s.emit e).ncnt = s.ncnt := rfl
@[simp] theorem State.emit_val (s : State) (e : Event) : (s.emit e).val = s.val := rfl
@[simp] theorem State.emit_clk (s : State) (e : Event) : (s.emit e).clk = s.clk := rfl
@[simp] theorem State.emit_cs (s : State) (e : Event) : (s.emit e).cs = s.cs := rfl
@[simp] theorem State.emit_resStatus (s : State) (e : Event) : (s.emit e).resStatus = s.resStatus := rfl
@[simp] theorem State.emit_resValue (s : State) (e : Event) : (s.emit e).resValue = s.resValue := rfl
@[simp] theorem State.emit_resNoisy (s : State) (e : Event) : (s.emit e).resNoisy = s.resNoisy := rfl
@[simp] theorem State.emit_resNcnt (s : State) (e : Event) : (s.emit e).resNcnt = s.resNcnt := rfl
@[simp] theorem State.emit_resDiscard (s : State) (e : Event) : (s.emit e).resDiscard = s.resDiscard := rfl
@[simp] theorem State.emit_trace (s : State) (e : Event) : (s.emit e).trace = s.trace ++ [e] := rfl
@[simp] theorem State.emit_inp (s : State) (e : Event) : (s.emit e).inp = s.inp := rfl
@[simp] theorem State.emit_script (s : State) (e : Event) : (s.emit e).script = s.script := rfl
@[simp] theorem State.emit_tick (s : State) (e : Event) : (s.emit e).tick = s.tick := rfl

/-! ## `State.setClk` -/

@[simp] theorem State.setClk_params (s : State) (v : BitVec 1) : (s.setClk v).params = s.params := rfl
@[simp] theorem State.setClk_gain (s : State) (v : BitVec 1) : (s.setClk v).gain = s.gain := rfl
@[simp] theorem State.setClk_phase (s : State) (v : BitVec 1) : (s.setClk v).phase = s.phase := rfl
@[simp] theorem State.setClk_i (s : State) (v : BitVec 1) : (s.setClk v).i = s.i := rfl
@[simp] theorem State.setClk_j (s : State) (v : BitVec 1) : (s.setClk v).j = s.j := rfl
@[simp] theorem State.setClk_g (s : State) (v : BitVec 1) : (s.setClk v).g = s.g := rfl
@[simp] theorem State.setClk_disc (s : State) (v : BitVec 1) : (s.setClk v).disc = s.disc := rfl
@[simp] theorem State.setClk_acc (s : State) (v : BitVec 1) : (s.setClk v).acc = s.acc := rfl
@[simp] theorem State.setClk_s1 (s : State) (v : BitVec 1) : (s.setClk v).s1 = s.s1 := rfl
@[simp] theorem State.setClk_s2 (s : State) (v : BitVec 1) : (s.setClk v).s2 = s.s2 := rfl
@[simp] theorem State.setClk_s3 (s : State) (v : BitVec 1) : (s.setClk v).s3 = s.s3 := rfl
@[simp] theorem State.setClk_ncnt (s : State) (v : BitVec 1) : (s.setClk v).ncnt = s.ncnt := rfl
@[simp] theorem State.setClk_val (s : State) (v : BitVec 1) : (s.setClk v).val = s.val := rfl
@[simp] theorem State.setClk_clk (s : State) (v : BitVec 1) : (s.setClk v).clk = v := rfl
@[simp] theorem State.setClk_cs (s : State) (v : BitVec 1) : (s.setClk v).cs = s.cs := rfl
@[simp] theorem State.setClk_resStatus (s : State) (v : BitVec 1) : (s.setClk v).resStatus = s.resStatus := rfl
@[simp] theorem State.setClk_resValue (s : State) (v : BitVec 1) : (s.setClk v).resValue = s.resValue := rfl
@[simp] theorem State.setClk_resNoisy (s : State) (v : BitVec 1) : (s.setClk v).resNoisy = s.resNoisy := rfl
@[simp] theorem State.setClk_resNcnt (s : State) (v : BitVec 1) : (s.setClk v).resNcnt = s.resNcnt := rfl
@[simp] theorem State.setClk_resDiscard (s : State) (v : BitVec 1) : (s.setClk v).resDiscard = s.resDiscard := rfl
@[simp] theorem State.setClk_trace (s : State) (v : BitVec 1) : (s.setClk v).trace = s.trace ++ [Event.clkSet v] := rfl
@[simp] theorem State.setClk_inp (s : State) (v : BitVec 1) : (s.setClk v).inp = s.inp := rfl
@[simp] theorem State.setClk_script (s : State) (v : BitVec 1) : (s.setClk v).script = s.script := rfl
@[simp] theorem State.setClk_tick (s : State) (v : BitVec 1) : (s.setClk v).tick = s.tick := rfl

/-! ## `State.setCs` -/

@[simp] theorem State.setCs_params (s : State) (v : BitVec 1) : (s.setCs v).params = s.params := rfl
@[simp] theorem State.setCs_gain (s : State) (v : BitVec 1) : (s.setCs v).gain = s.gain := rfl
@[simp] theorem State.setCs_phase (s : State) (v : BitVec 1) : (s.setCs v).phase = s.phase := rfl
@[simp] theorem State.setCs_i (s : State) (v : BitVec 1) : (s.setCs v).i = s.i := rfl
@[simp] theorem State.setCs_j (s : State) (v : BitVec 1) : (s.setCs v).j = s.j := rfl
@[simp] theorem State.setCs_g (s : State) (v : BitVec 1) : (s.setCs v).g = s.g := rfl
@[simp] theorem State.setCs_disc (s : State) (v : BitVec 1) : (s.setCs v).disc = s.disc := rfl
@[simp] theorem State.setCs_acc (s : State) (v : BitVec 1) : (s.setCs v).acc = s.acc := rfl
@[simp] theorem State.setCs_s1 (s : State) (v : BitVec 1) : (s.setCs v).s1 = s.s1 := rfl
@[simp] theorem State.setCs_s2 (s : State) (v : BitVec 1) : (s.setCs v).s2 = s.s2 := rfl
@[simp] theorem State.setCs_s3 (s : State) (v : BitVec 1) : (s.setCs v).s3 = s.s3 := rfl
@[simp] theorem State.setCs_ncnt (s : State) (v : BitVec 1) : (s.setCs v).ncnt = s.ncnt := rfl
@[simp] theorem State.setCs_val (s : State) (v : BitVec 1) : (s.setCs v).val = s.val := rfl
@[simp] theorem State.setCs_clk (s : State) (v : BitVec 1) : (s.setCs v).clk = s.clk := rfl
@[simp] theorem State.setCs_cs (s : State) (v : BitVec 1) : (s.setCs v).cs = v := rfl
@[simp] theorem State.setCs_resStatus (s : State) (v : BitVec 1) : (s.setCs v).resStatus = s.resStatus := rfl
@[simp] theorem State.setCs_resValue (s : State) (v : BitVec 1) : (s.setCs v).resValue = s.resValue := rfl
@[simp] theorem State.setCs_resNoisy (s : State) (v : BitVec 1) : (s.setCs v).resNoisy = s.resNoisy := rfl
@[simp] theorem State.setCs_resNcnt (s : State) (v : BitVec 1) : (s.setCs v).resNcnt = s.resNcnt := rfl
@[simp] theorem State.setCs_resDiscard (s : State) (v : BitVec 1) : (s.setCs v).resDiscard = s.resDiscard := rfl
@[simp] theorem State.setCs_trace (s : State) (v : BitVec 1) : (s.setCs v).trace = s.trace ++ [Event.csSet v] := rfl
@[simp] theorem State.setCs_inp (s : State) (v : BitVec 1) : (s.setCs v).inp = s.inp := rfl
@[simp] theorem State.setCs_script (s : State) (v : BitVec 1) : (s.setCs v).script = s.script := rfl
@[simp] theorem State.setCs_tick (s : State) (v : BitVec 1) : (s.setCs v).tick = s.tick := rfl

/-! ## `State.wait` -/

@[simp] theorem State.wait_params (s : State) (n : Nat) : (s.wait n).params = s.params := rfl
@[simp] theorem State.wait_gain (s : State) (n : Nat) : (s.wait n).gain = s.gain := rfl
@[simp] theorem State.wait_phase (s : State) (n : Nat) : (s.wait n).phase = s.phase := rfl
@[simp] theorem State.wait_i (s : State) (n : Nat) : (s.wait n).i = s.i := rfl
@[simp] theorem State.wait_j (s : State) (n : Nat) : (s.wait n).j = s.j := rfl
@[simp] theorem State.wait_g (s : State) (n : Nat) : (s.wait n).g = s.g := rfl
@[simp] theorem State.wait_disc (s : State) (n : Nat) : (s.wait n).disc = s.disc := rfl
@[simp] theorem State.wait_acc (s : State) (n : Nat) : (s.wait n).acc = s.acc := rfl
@[simp] theorem State.wait_s1 (s : State) (n : Nat) : (s.wait n).s1 = s.s1 := rfl
@[simp] theorem State.wait_s2 (s : State) (n : Nat) : (s.wait n).s2 = s.s2 := rfl
@[simp] theorem State.wait_s3 (s : State) (n : Nat) : (s.wait n).s3 = s.s3 := rfl
@[simp] theorem State.wait_ncnt (s : State) (n : Nat) : (s.wait n).ncnt = s.ncnt := rfl
@[simp] theorem State.wait_val (s : State) (n : Nat) : (s.wait n).val = s.val := rfl
@[simp] theorem State.wait_clk (s : State) (n : Nat) : (s.wait n).clk = s.clk := rfl
@[simp] theorem State.wait_cs (s : State) (n : Nat) : (s.wait n).cs = s.cs := rfl
@[simp] theorem State.wait_resStatus (s : State) (n : Nat) : (s.wait n).resStatus = s.resStatus := rfl
@[simp] theorem State.wait_resValue (s : State) (n : Nat) : (s.wait n).resValue = s.resValue := rfl
@[simp] theorem State.wait_resNoisy (s : State) (n : Nat) : (s.wait n).resNoisy = s.resNoisy := rfl
@[simp] theorem State.wait_resNcnt (s : State) (n : Nat) : (s.wait n).resNcnt = s.resNcnt := rfl
@[simp] theorem State.wait_resDiscard (s : State) (n : Nat) : (s.wait n).resDiscard = s.resDiscard := rfl
@[simp] theorem State.wait_trace (s : State) (n : Nat) : (s.wait n).trace = s.trace ++ [Event.wait n] := rfl
@[simp] theorem State.wait_inp (s : State) (n : Nat) : (s.wait n).inp = s.inp := rfl
@[simp] theorem State.wait_script (s : State) (n : Nat) : (s.wait n).script = s.script := rfl
@[simp] theorem State.wait_tick (s : State) (n : Nat) : (s.wait n).tick = s.tick := rfl

/-! ## `State.goto` -/

@[simp] theorem State.goto_params (s : State) (p : BitVec 4) : (s.goto p).params = s.params := rfl
@[simp] theorem State.goto_gain (s : State) (p : BitVec 4) : (s.goto p).gain = s.gain := rfl
@[simp] theorem State.goto_phase (s : State) (p : BitVec 4) : (s.goto p).phase = p := rfl
@[simp] theorem State.goto_i (s : State) (p : BitVec 4) : (s.goto p).i = s.i := rfl
@[simp] theorem State.goto_j (s : State) (p : BitVec 4) : (s.goto p).j = s.j := rfl
@[simp] theorem State.goto_g (s : State) (p : BitVec 4) : (s.goto p).g = s.g := rfl
@[simp] theorem State.goto_disc (s : State) (p : BitVec 4) : (s.goto p).disc = s.disc := rfl
@[simp] theorem State.goto_acc (s : State) (p : BitVec 4) : (s.goto p).acc = s.acc := rfl
@[simp] theorem State.goto_s1 (s : State) (p : BitVec 4) : (s.goto p).s1 = s.s1 := rfl
@[simp] theorem State.goto_s2 (s : State) (p : BitVec 4) : (s.goto p).s2 = s.s2 := rfl
@[simp] theorem State.goto_s3 (s : State) (p : BitVec 4) : (s.goto p).s3 = s.s3 := rfl
@[simp] theorem State.goto_ncnt (s : State) (p : BitVec 4) : (s.goto p).ncnt = s.ncnt := rfl
@[simp] theorem State.goto_val (s : State) (p : BitVec 4) : (s.goto p).val = s.val := rfl
@[simp] theorem State.goto_clk (s : State) (p : BitVec 4) : (s.goto p).clk = s.clk := rfl
@[simp] theorem State.goto_cs (s : State) (p : BitVec 4) : (s.goto p).cs = s.cs := rfl
@[simp] theorem State.goto_resStatus (s : State) (p : BitVec 4) : (s.goto p).resStatus = s.resStatus := rfl
@[simp] theorem State.goto_resValue (s : State) (p : BitVec 4) : (s.goto p).resValue = s.resValue := rfl
@[simp] theorem State.goto_resNoisy (s : State) (p : BitVec 4) : (s.goto p).resNoisy = s.resNoisy := rfl
@[simp] theorem State.goto_resNcnt (s : State) (p : BitVec 4) : (s.goto p).resNcnt = s.resNcnt := rfl
@[simp] theorem State.goto_resDiscard (s : State) (p : BitVec 4) : (s.goto p).resDiscard = s.resDiscard := rfl
@[simp] theorem State.goto_trace (s : State) (p : BitVec 4) : (s.goto p).trace = s.trace := rfl
@[simp] theorem State.goto_inp (s : State) (p : BitVec 4) : (s.goto p).inp = s.inp := rfl
@[simp] theorem State.goto_script (s : State) (p : BitVec 4) : (s.goto p).script = s.script := rfl
@[simp] theorem State.goto_tick (s : State) (p : BitVec 4) : (s.goto p).tick = s.tick := rfl

/-! ## `State.offer` -/

@[simp] theorem State.offer_params (s : State) (d : BitVec 1) : (s.offer d).params = s.params := rfl
@[simp] theorem State.offer_gain (s : State) (d : BitVec 1) : (s.offer d).gain = s.gain := rfl
@[simp] theorem State.offer_phase (s : State) (d : BitVec 1) : (s.offer d).phase = s.phase := rfl
@[simp] theorem State.offer_i (s : State) (d : BitVec 1) : (s.offer d).i = s.i := rfl
@[simp] theorem State.offer_j (s : State) (d : BitVec 1) : (s.offer d).j = s.j := rfl
@[simp] theorem State.offer_g (s : State) (d : BitVec 1) : (s.offer d).g = s.g := rfl
@[simp] theorem State.offer_disc (s : State) (d : BitVec 1) : (s.offer d).disc = s.disc := rfl
@[simp] theorem State.offer_acc (s : State) (d : BitVec 1) : (s.offer d).acc = s.acc := rfl
@[simp] theorem State.offer_s1 (s : State) (d : BitVec 1) : (s.offer d).s1 = s.s1 := rfl
@[simp] theorem State.offer_s2 (s : State) (d : BitVec 1) : (s.offer d).s2 = s.s2 := rfl
@[simp] theorem State.offer_s3 (s : State) (d : BitVec 1) : (s.offer d).s3 = s.s3 := rfl
@[simp] theorem State.offer_ncnt (s : State) (d : BitVec 1) : (s.offer d).ncnt = s.ncnt := rfl
@[simp] theorem State.offer_val (s : State) (d : BitVec 1) : (s.offer d).val = s.val := rfl
@[simp] theorem State.offer_clk (s : State) (d : BitVec 1) : (s.offer d).clk = s.clk := rfl
@[simp] theorem State.offer_cs (s : State) (d : BitVec 1) : (s.offer d).cs = s.cs := rfl
@[simp] theorem State.offer_resStatus (s : State) (d : BitVec 1) : (s.offer d).resStatus = s.resStatus := rfl
@[simp] theorem State.offer_resValue (s : State) (d : BitVec 1) : (s.offer d).resValue = s.resValue := rfl
@[simp] theorem State.offer_resNoisy (s : State) (d : BitVec 1) : (s.offer d).resNoisy = s.resNoisy := rfl
@[simp] theorem State.offer_resNcnt (s : State) (d : BitVec 1) : (s.offer d).resNcnt = s.resNcnt := rfl
@[simp] theorem State.offer_resDiscard (s : State) (d : BitVec 1) : (s.offer d).resDiscard = s.resDiscard := rfl
@[simp] theorem State.offer_trace (s : State) (d : BitVec 1) : (s.offer d).trace = s.trace := rfl
@[simp] theorem State.offer_inp (s : State) (d : BitVec 1) : (s.offer d).inp = { s.inp with cmdValid := 1#1, cmdDiscard := d } := rfl
@[simp] theorem State.offer_script (s : State) (d : BitVec 1) : (s.offer d).script = s.script := rfl
@[simp] theorem State.offer_tick (s : State) (d : BitVec 1) : (s.offer d).tick = s.tick := rfl

/-! ## `State.accept` -/

@[simp] theorem State.accept_params (s : State) : s.accept.params = s.params := rfl
@[simp] theorem State.accept_gain (s : State) : s.accept.gain = s.gain := rfl
@[simp] theorem State.accept_phase (s : State) : s.accept.phase = PhaseCode.check := rfl
@[simp] theorem State.accept_i (s : State) : s.accept.i = 0#5 := rfl
@[simp] theorem State.accept_j (s : State) : s.accept.j = 0#2 := rfl
@[simp] theorem State.accept_g (s : State) : s.accept.g = 0#2 := rfl
@[simp] theorem State.accept_disc (s : State) : s.accept.disc = s.inp.cmdDiscard := rfl
@[simp] theorem State.accept_acc (s : State) : s.accept.acc = 0#24 := rfl
@[simp] theorem State.accept_s1 (s : State) : s.accept.s1 = 0#1 := rfl
@[simp] theorem State.accept_s2 (s : State) : s.accept.s2 = 0#1 := rfl
@[simp] theorem State.accept_s3 (s : State) : s.accept.s3 = 0#1 := rfl
@[simp] theorem State.accept_ncnt (s : State) : s.accept.ncnt = 0#5 := rfl
@[simp] theorem State.accept_val (s : State) : s.accept.val = 0#32 := rfl
@[simp] theorem State.accept_clk (s : State) : s.accept.clk = s.clk := rfl
@[simp] theorem State.accept_cs (s : State) : s.accept.cs = s.cs := rfl
@[simp] theorem State.accept_resStatus (s : State) : s.accept.resStatus = s.resStatus := rfl
@[simp] theorem State.accept_resValue (s : State) : s.accept.resValue = s.resValue := rfl
@[simp] theorem State.accept_resNoisy (s : State) : s.accept.resNoisy = s.resNoisy := rfl
@[simp] theorem State.accept_resNcnt (s : State) : s.accept.resNcnt = s.resNcnt := rfl
@[simp] theorem State.accept_resDiscard (s : State) : s.accept.resDiscard = s.resDiscard := rfl
@[simp] theorem State.accept_trace (s : State) : s.accept.trace = s.trace ++ [Event.accept s.inp.cmdDiscard] := rfl
@[simp] theorem State.accept_inp (s : State) : s.accept.inp = s.inp := rfl
@[simp] theorem State.accept_script (s : State) : s.accept.script = s.script := rfl
@[simp] theorem State.accept_tick (s : State) : s.accept.tick = s.tick := rfl

/-! ## `State.putSample` -/

@[simp] theorem State.putSample_params (s : State) (v : BitVec 1) : (s.putSample v).params = s.params := rfl
@[simp] theorem State.putSample_gain (s : State) (v : BitVec 1) : (s.putSample v).gain = s.gain := rfl
@[simp] theorem State.putSample_phase (s : State) (v : BitVec 1) : (s.putSample v).phase = s.phase := rfl
@[simp] theorem State.putSample_i (s : State) (v : BitVec 1) : (s.putSample v).i = s.i := rfl
@[simp] theorem State.putSample_j (s : State) (v : BitVec 1) : (s.putSample v).j = s.j := rfl
@[simp] theorem State.putSample_g (s : State) (v : BitVec 1) : (s.putSample v).g = s.g := rfl
@[simp] theorem State.putSample_disc (s : State) (v : BitVec 1) : (s.putSample v).disc = s.disc := rfl
@[simp] theorem State.putSample_acc (s : State) (v : BitVec 1) : (s.putSample v).acc = s.acc := rfl
@[simp] theorem State.putSample_s1 (s : State) (v : BitVec 1) : (s.putSample v).s1 = if s.j = 1#2 then v else s.s1 := rfl
@[simp] theorem State.putSample_s2 (s : State) (v : BitVec 1) : (s.putSample v).s2 = if s.j = 2#2 then v else s.s2 := rfl
@[simp] theorem State.putSample_s3 (s : State) (v : BitVec 1) : (s.putSample v).s3 = if s.j = 3#2 then v else s.s3 := rfl
@[simp] theorem State.putSample_ncnt (s : State) (v : BitVec 1) : (s.putSample v).ncnt = s.ncnt := rfl
@[simp] theorem State.putSample_val (s : State) (v : BitVec 1) : (s.putSample v).val = s.val := rfl
@[simp] theorem State.putSample_clk (s : State) (v : BitVec 1) : (s.putSample v).clk = s.clk := rfl
@[simp] theorem State.putSample_cs (s : State) (v : BitVec 1) : (s.putSample v).cs = s.cs := rfl
@[simp] theorem State.putSample_resStatus (s : State) (v : BitVec 1) : (s.putSample v).resStatus = s.resStatus := rfl
@[simp] theorem State.putSample_resValue (s : State) (v : BitVec 1) : (s.putSample v).resValue = s.resValue := rfl
@[simp] theorem State.putSample_resNoisy (s : State) (v : BitVec 1) : (s.putSample v).resNoisy = s.resNoisy := rfl
@[simp] theorem State.putSample_resNcnt (s : State) (v : BitVec 1) : (s.putSample v).resNcnt = s.resNcnt := rfl
@[simp] theorem State.putSample_resDiscard (s : State) (v : BitVec 1) : (s.putSample v).resDiscard = s.resDiscard := rfl
@[simp] theorem State.putSample_trace (s : State) (v : BitVec 1) : (s.putSample v).trace = s.trace := rfl
@[simp] theorem State.putSample_inp (s : State) (v : BitVec 1) : (s.putSample v).inp = s.inp := rfl
@[simp] theorem State.putSample_script (s : State) (v : BitVec 1) : (s.putSample v).script = s.script := rfl
@[simp] theorem State.putSample_tick (s : State) (v : BitVec 1) : (s.putSample v).tick = s.tick := rfl

/-! ## `State.writeResult` -/

@[simp] theorem State.writeResult_params (s : State) (st : BitVec 2) (x : BitVec 32) (ny : BitVec 1) (n : BitVec 5) : (s.writeResult st x ny n).params = s.params := rfl
@[simp] theorem State.writeResult_gain (s : State) (st : BitVec 2) (x : BitVec 32) (ny : BitVec 1) (n : BitVec 5) : (s.writeResult st x ny n).gain = s.gain := rfl
@[simp] theorem State.writeResult_phase (s : State) (st : BitVec 2) (x : BitVec 32) (ny : BitVec 1) (n : BitVec 5) : (s.writeResult st x ny n).phase = s.phase := rfl
@[simp] theorem State.writeResult_i (s : State) (st : BitVec 2) (x : BitVec 32) (ny : BitVec 1) (n : BitVec 5) : (s.writeResult st x ny n).i = s.i := rfl
@[simp] theorem State.writeResult_j (s : State) (st : BitVec 2) (x : BitVec 32) (ny : BitVec 1) (n : BitVec 5) : (s.writeResult st x ny n).j = s.j := rfl
@[simp] theorem State.writeResult_g (s : State) (st : BitVec 2) (x : BitVec 32) (ny : BitVec 1) (n : BitVec 5) : (s.writeResult st x ny n).g = s.g := rfl
@[simp] theorem State.writeResult_disc (s : State) (st : BitVec 2) (x : BitVec 32) (ny : BitVec 1) (n : BitVec 5) : (s.writeResult st x ny n).disc = s.disc := rfl
@[simp] theorem State.writeResult_acc (s : State) (st : BitVec 2) (x : BitVec 32) (ny : BitVec 1) (n : BitVec 5) : (s.writeResult st x ny n).acc = s.acc := rfl
@[simp] theorem State.writeResult_s1 (s : State) (st : BitVec 2) (x : BitVec 32) (ny : BitVec 1) (n : BitVec 5) : (s.writeResult st x ny n).s1 = s.s1 := rfl
@[simp] theorem State.writeResult_s2 (s : State) (st : BitVec 2) (x : BitVec 32) (ny : BitVec 1) (n : BitVec 5) : (s.writeResult st x ny n).s2 = s.s2 := rfl
@[simp] theorem State.writeResult_s3 (s : State) (st : BitVec 2) (x : BitVec 32) (ny : BitVec 1) (n : BitVec 5) : (s.writeResult st x ny n).s3 = s.s3 := rfl
@[simp] theorem State.writeResult_ncnt (s : State) (st : BitVec 2) (x : BitVec 32) (ny : BitVec 1) (n : BitVec 5) : (s.writeResult st x ny n).ncnt = s.ncnt := rfl
@[simp] theorem State.writeResult_val (s : State) (st : BitVec 2) (x : BitVec 32) (ny : BitVec 1) (n : BitVec 5) : (s.writeResult st x ny n).val = s.val := rfl
@[simp] theorem State.writeResult_clk (s : State) (st : BitVec 2) (x : BitVec 32) (ny : BitVec 1) (n : BitVec 5) : (s.writeResult st x ny n).clk = s.clk := rfl
@[simp] theorem State.writeResult_cs (s : State) (st : BitVec 2) (x : BitVec 32) (ny : BitVec 1) (n : BitVec 5) : (s.writeResult st x ny n).cs = s.cs := rfl
@[simp] theorem State.writeResult_resStatus (s : State) (st : BitVec 2) (x : BitVec 32) (ny : BitVec 1) (n : BitVec 5) : (s.writeResult st x ny n).resStatus = st := rfl
@[simp] theorem State.writeResult_resValue (s : State) (st : BitVec 2) (x : BitVec 32) (ny : BitVec 1) (n : BitVec 5) : (s.writeResult st x ny n).resValue = x := rfl
@[simp] theorem State.writeResult_resNoisy (s : State) (st : BitVec 2) (x : BitVec 32) (ny : BitVec 1) (n : BitVec 5) : (s.writeResult st x ny n).resNoisy = ny := rfl
@[simp] theorem State.writeResult_resNcnt (s : State) (st : BitVec 2) (x : BitVec 32) (ny : BitVec 1) (n : BitVec 5) : (s.writeResult st x ny n).resNcnt = n := rfl
@[simp] theorem State.writeResult_resDiscard (s : State) (st : BitVec 2) (x : BitVec 32) (ny : BitVec 1) (n : BitVec 5) : (s.writeResult st x ny n).resDiscard = s.disc := rfl
@[simp] theorem State.writeResult_trace (s : State) (st : BitVec 2) (x : BitVec 32) (ny : BitVec 1) (n : BitVec 5) : (s.writeResult st x ny n).trace = s.trace ++ [Event.result st x ny n s.disc] := rfl
@[simp] theorem State.writeResult_inp (s : State) (st : BitVec 2) (x : BitVec 32) (ny : BitVec 1) (n : BitVec 5) : (s.writeResult st x ny n).inp = s.inp := rfl
@[simp] theorem State.writeResult_script (s : State) (st : BitVec 2) (x : BitVec 32) (ny : BitVec 1) (n : BitVec 5) : (s.writeResult st x ny n).script = s.script := rfl
@[simp] theorem State.writeResult_tick (s : State) (st : BitVec 2) (x : BitVec 32) (ny : BitVec 1) (n : BitVec 5) : (s.writeResult st x ny n).tick = s.tick := rfl

/-! ## `State.resetStep` -/

@[simp] theorem State.resetStep_params (s : State) : s.resetStep.params = s.params := rfl
@[simp] theorem State.resetStep_gain (s : State) : s.resetStep.gain = s.inp.cfgGain := rfl
@[simp] theorem State.resetStep_phase (s : State) : s.resetStep.phase = State.reset.phase := rfl
@[simp] theorem State.resetStep_i (s : State) : s.resetStep.i = State.reset.i := rfl
@[simp] theorem State.resetStep_j (s : State) : s.resetStep.j = State.reset.j := rfl
@[simp] theorem State.resetStep_g (s : State) : s.resetStep.g = State.reset.g := rfl
@[simp] theorem State.resetStep_disc (s : State) : s.resetStep.disc = State.reset.disc := rfl
@[simp] theorem State.resetStep_acc (s : State) : s.resetStep.acc = State.reset.acc := rfl
@[simp] theorem State.resetStep_s1 (s : State) : s.resetStep.s1 = State.reset.s1 := rfl
@[simp] theorem State.resetStep_s2 (s : State) : s.resetStep.s2 = State.reset.s2 := rfl
@[simp] theorem State.resetStep_s3 (s : State) : s.resetStep.s3 = State.reset.s3 := rfl
@[simp] theorem State.resetStep_ncnt (s : State) : s.resetStep.ncnt = State.reset.ncnt := rfl
@[simp] theorem State.resetStep_val (s : State) : s.resetStep.val = State.reset.val := rfl
@[simp] theorem State.resetStep_clk (s : State) : s.resetStep.clk = State.reset.clk := rfl
@[simp] theorem State.resetStep_cs (s : State) : s.resetStep.cs = State.reset.cs := rfl
@[simp] theorem State.resetStep_resStatus (s : State) : s.resetStep.resStatus = State.reset.resStatus := rfl
@[simp] theorem State.resetStep_resValue (s : State) : s.resetStep.resValue = State.reset.resValue := rfl
@[simp] theorem State.resetStep_resNoisy (s : State) : s.resetStep.resNoisy = State.reset.resNoisy := rfl
@[simp] theorem State.resetStep_resNcnt (s : State) : s.resetStep.resNcnt = State.reset.resNcnt := rfl
@[simp] theorem State.resetStep_resDiscard (s : State) : s.resetStep.resDiscard = State.reset.resDiscard := rfl
@[simp] theorem State.resetStep_trace (s : State) : s.resetStep.trace = s.trace ++ s.resetEvents := rfl
@[simp] theorem State.resetStep_inp (s : State) : s.resetStep.inp = s.inp := rfl
@[simp] theorem State.resetStep_script (s : State) : s.resetStep.script = s.script := rfl
@[simp] theorem State.resetStep_tick (s : State) : s.resetStep.tick = s.tick := rfl

/-! ## `State.advance` -/

@[simp] theorem State.advance_params (b s : State) : (b.advance s).params = b.params := rfl
@[simp] theorem State.advance_gain (b s : State) : (b.advance s).gain = b.gain := rfl
@[simp] theorem State.advance_phase (b s : State) : (b.advance s).phase = b.phase := rfl
@[simp] theorem State.advance_i (b s : State) : (b.advance s).i = b.i := rfl
@[simp] theorem State.advance_j (b s : State) : (b.advance s).j = b.j := rfl
@[simp] theorem State.advance_g (b s : State) : (b.advance s).g = b.g := rfl
@[simp] theorem State.advance_disc (b s : State) : (b.advance s).disc = b.disc := rfl
@[simp] theorem State.advance_acc (b s : State) : (b.advance s).acc = b.acc := rfl
@[simp] theorem State.advance_s1 (b s : State) : (b.advance s).s1 = b.s1 := rfl
@[simp] theorem State.advance_s2 (b s : State) : (b.advance s).s2 = b.s2 := rfl
@[simp] theorem State.advance_s3 (b s : State) : (b.advance s).s3 = b.s3 := rfl
@[simp] theorem State.advance_ncnt (b s : State) : (b.advance s).ncnt = b.ncnt := rfl
@[simp] theorem State.advance_val (b s : State) : (b.advance s).val = b.val := rfl
@[simp] theorem State.advance_clk (b s : State) : (b.advance s).clk = b.clk := rfl
@[simp] theorem State.advance_cs (b s : State) : (b.advance s).cs = b.cs := rfl
@[simp] theorem State.advance_resStatus (b s : State) : (b.advance s).resStatus = b.resStatus := rfl
@[simp] theorem State.advance_resValue (b s : State) : (b.advance s).resValue = b.resValue := rfl
@[simp] theorem State.advance_resNoisy (b s : State) : (b.advance s).resNoisy = b.resNoisy := rfl
@[simp] theorem State.advance_resNcnt (b s : State) : (b.advance s).resNcnt = b.resNcnt := rfl
@[simp] theorem State.advance_resDiscard (b s : State) : (b.advance s).resDiscard = b.resDiscard := rfl
@[simp] theorem State.advance_trace (b s : State) : (b.advance s).trace = b.trace := rfl
@[simp] theorem State.advance_inp (b s : State) : (b.advance s).inp = s.nextInputs := rfl
@[simp] theorem State.advance_script (b s : State) : (b.advance s).script = s.script.tail := rfl
@[simp] theorem State.advance_tick (b s : State) : (b.advance s).tick = if s.script = [] then s.tick + 1 else s.tick := rfl

end Sys2Proof.Machine
end

