-- ==== Sys2Proof/Laws/Ops.lean ====
section
/-! SUPPORT. One lemma per shared operation that says once what it can do. -/

namespace Sys2Proof.Machine

/-- `cmd_ready` in the terms of spec 10 R37. -/
theorem State.cmdReady_iff (s : State) : s.cmdReady = true ↔ s.phase = PhaseCode.idle ∧ s.inp.rst = 0#1 := by
  simp [State.cmdReady]

/-- Offering a command changes no part of readiness. -/
@[simp] theorem State.cmdReady_offer (s : State) (d : BitVec 1) : (s.offer d).cmdReady = s.cmdReady := rfl

/-- A command line is either accepted, exactly when `cmd_ready`, or left on offer. -/
theorem State.command_cases (s : State) (d : BitVec 1) :
    (s.cmdReady = true ∧ s.command d = (s.offer d).accept) ∨ (s.cmdReady = false ∧ s.command d = s.offer d) := by
  unfold State.command
  cases h : s.cmdReady <;> simp [h]

/-- Offering the command that is on offer already changes nothing. -/
theorem State.offer_of_offered {s : State} (h : s.inp.cmdValid = 1#1) : s.offer s.inp.cmdDiscard = s := by
  obtain ⟨⟩ := s; simp_all [State.offer]; rename_i inp _ _; obtain ⟨⟩ := inp; simp_all

/-- The environment keeps an offer that the step did not accept, and drives the other ports freely. -/
theorem State.nextInputs_cases (s : State) :
    (s.offerPending = true ∧ s.nextInputs = { s.envInputs with cmdValid := 1#1, cmdDiscard := s.inp.cmdDiscard }) ∨
    (s.offerPending = false ∧ s.nextInputs = s.envInputs) := by
  unfold State.nextInputs
  cases h : s.offerPending <;> simp

/-- An offer is pending when it stands and the block is not ready. -/
theorem State.offerPending_iff (s : State) :
    s.offerPending = true ↔ s.inp.cmdValid = 1#1 ∧ ¬(s.phase = PhaseCode.idle ∧ s.inp.rst = 0#1) := by
  rw [← State.cmdReady_iff]; simp [State.offerPending]

/-- The script's head is what the environment drives, as far as it says: `rst` and DATA are never overridden. -/
theorem State.nextInputs_of_script {s : State} {p : PortInputs} {ps : List PortInputs} (h : s.script = p :: ps) :
    s.nextInputs.rst = p.rst ∧ s.nextInputs.dataIn = p.dataIn ∧ s.nextInputs.cfgGain = p.cfgGain := by
  have : s.envInputs = p := by simp [State.envInputs, h]
  rcases s.nextInputs_cases with ⟨_, e⟩ | ⟨_, e⟩ <;> simp [e, this]

/-- What a step fetches: the offered command word in IDLE, else the phase code. -/
theorem State.fetchCode_cases (s : State) :
    (s.phase = PhaseCode.idle ∧ s.inp.cmdValid = 1#1 ∧ s.fetchCode = .cmd s.inp.cmdDiscard) ∨
    (¬(s.phase = PhaseCode.idle ∧ s.inp.cmdValid = 1#1) ∧ s.fetchCode = .phase s.phase) := by
  unfold State.fetchCode
  split <;> rename_i h <;> simp [h]

/-- Outside IDLE a step fetches the phase code. -/
theorem State.fetchCode_of_busy {s : State} (h : s.phase ≠ PhaseCode.idle) : s.fetchCode = .phase s.phase := by
  simp [State.fetchCode, h]

/-- The gain check (spec 30 R75). -/
theorem State.admitted_iff (s : State) : s.admitted = true ↔ s.gain ≠ 0#2 := by
  simp [State.admitted, gainWellFormed]

end Sys2Proof.Machine
end

