-- ==== Sys2Proof/Laws/PerInstr.lean ====
section
/-! SUPPORT. A family of statements about every instruction as syntax: its encoding is a well-formed raw word of one of the
two fixed widths (spec 30 R88), and the instruction itself is well formed (spec 30 R71). -/

namespace Sys2Proof.Laws

/-- The family. -/
def EncodingFits.Statement (i : Instr) : Prop := (encode i).raw.wellFormed = true ∧ i.wellFormed = true

theorem EncodingFits.read : EncodingFits.Statement .read := ⟨by decide, rfl⟩
theorem EncodingFits.setup : EncodingFits.Statement .setup := ⟨by decide, rfl⟩
theorem EncodingFits.idle : EncodingFits.Statement .idle := ⟨by decide, rfl⟩
theorem EncodingFits.check : EncodingFits.Statement .check := ⟨by decide, rfl⟩
theorem EncodingFits.csOn : EncodingFits.Statement .csOn := ⟨by decide, rfl⟩
theorem EncodingFits.rise : EncodingFits.Statement .rise := ⟨by decide, rfl⟩
theorem EncodingFits.waitS : EncodingFits.Statement .waitS := ⟨by decide, rfl⟩
theorem EncodingFits.sample : EncodingFits.Statement .sample := ⟨by decide, rfl⟩
theorem EncodingFits.vote : EncodingFits.Statement .vote := ⟨by decide, rfl⟩
theorem EncodingFits.fall : EncodingFits.Statement .fall := ⟨by decide, rfl⟩
theorem EncodingFits.waitL : EncodingFits.Statement .waitL := ⟨by decide, rfl⟩
theorem EncodingFits.gRise : EncodingFits.Statement .gRise := ⟨by decide, rfl⟩
theorem EncodingFits.gWaitH : EncodingFits.Statement .gWaitH := ⟨by decide, rfl⟩
theorem EncodingFits.gFall : EncodingFits.Statement .gFall := ⟨by decide, rfl⟩
theorem EncodingFits.csOff : EncodingFits.Statement .csOff := ⟨by decide, rfl⟩
theorem EncodingFits.gWaitL : EncodingFits.Statement .gWaitL := ⟨by decide, rfl⟩
theorem EncodingFits.sext : EncodingFits.Statement .sext := ⟨by decide, rfl⟩
theorem EncodingFits.complete : EncodingFits.Statement .complete := ⟨by decide, rfl⟩

end Sys2Proof.Laws
end

