-- ==== Sys2Proof/Laws/Step.lean ====
section
/-! SUPPORT. What one step can do: the inversion lemma of `step`, and that no meaning faults or refuses. -/

namespace Sys2Proof.Machine

/-- Every meaning answers a next state (spec 60 R160: no step traps, halts or enters an error state). -/
theorem exec_total (i : Instr) (s : State) : ∃ b, exec i s = .next b := by
  cases i <;> simp only [exec] <;>
    simp only [execRead, execSetup, execIdle, execCheck, execCsOn, execRise, execWaitS, execSample, execVote, execFall,
      execWaitL, execGRise, execGWaitH, execGFall, execCsOff, execGWaitL, execSext, execComplete] <;>
    first
      | exact ⟨_, rfl⟩
      | (split <;> exact ⟨_, rfl⟩)

/-- A reset step. -/
theorem step_of_rst {s : State} (h : s.inp.rst = 1#1) : step s = .next (s.resetStep.advance s) := by
  simp [step, h]

/-- A step of a refused instance. -/
theorem step_of_invalid {s : State} (h : s.inp.rst = 0#1) (hg : s.gain = 0#2) : step s = .refused .invalidGain := by
  simp [step, h, State.admitted, gainWellFormed, hg]

/-- A step that executes a code. -/
theorem step_of_exec {s b : State} (h : s.inp.rst = 0#1) (hg : s.gain ≠ 0#2)
    (he : exec (decode s.fetchCode) s = .next b) : step s = .next (b.advance s) := by
  simp [step, h, (State.admitted_iff s).mpr hg, he]

/-- Everything a step that answers a next state can be: a reset step, or the fetched instruction of an admitted
instance; in both cases the environment then drives the ports. -/
theorem step_cases {s t : State} (h : step s = .next t) :
    (s.inp.rst = 1#1 ∧ t = s.resetStep.advance s) ∨
    (s.inp.rst = 0#1 ∧ s.gain ≠ 0#2 ∧ ∃ b, exec (decode s.fetchCode) s = .next b ∧ t = b.advance s) := by
  rcases bit_cases s.inp.rst with hr | hr
  · right
    by_cases hg : s.gain = 0#2
    · rw [step_of_invalid hr hg] at h; cases h
    · obtain ⟨b, hb⟩ := exec_total (decode s.fetchCode) s
      rw [step_of_exec hr hg hb] at h
      exact ⟨hr, hg, b, hb, by cases h; rfl⟩
  · left
    rw [step_of_rst hr] at h
    exact ⟨hr, by cases h; rfl⟩

/-- Everything the block can do in one step, before the environment moves: one constructor per way a rule of spec 40, 41,
42 or 70 R181 can go, each with its guard. `Took s b`: the action in `s` leaves `b`. -/
inductive Took (s : State) : State → Prop where
  | reset (h : s.inp.rst = 1#1) : Took s s.resetStep
  | accept (h : s.inp.rst = 0#1) (p : s.phase = PhaseCode.idle) (c : s.inp.cmdValid = 1#1) : Took s s.accept
  | stutter (h : s.inp.rst = 0#1) (p : s.phase = PhaseCode.idle) (c : s.inp.cmdValid = 0#1) : Took s s
  | notReady (h : s.inp.rst = 0#1) (p : s.phase = PhaseCode.check) (c : s.inp.dataIn = 1#1) :
      Took s (((s.emit (.ready 1#1)).writeResult StatusCode.notReady 0#32 0#1 0#5).goto PhaseCode.idle)
  | ready (h : s.inp.rst = 0#1) (p : s.phase = PhaseCode.check) (c : s.inp.dataIn = 0#1) :
      Took s ((s.emit (.ready 0#1)).goto PhaseCode.csOn)
  | csOn (h : s.inp.rst = 0#1) (p : s.phase = PhaseCode.csOn) : Took s ((s.setCs 1#1).goto PhaseCode.rise)
  | rise (h : s.inp.rst = 0#1) (p : s.phase = PhaseCode.rise) :
      Took s { s.setClk 1#1 with j := 1#2, phase := PhaseCode.waitS }
  | waitS (h : s.inp.rst = 0#1) (p : s.phase = PhaseCode.waitS) :
      Took s ((s.wait s.params.tS).goto PhaseCode.sample)
  | sampleMore (h : s.inp.rst = 0#1) (p : s.phase = PhaseCode.sample) (c : s.j.toNat < 3) :
      Took s { (s.putSample s.inp.dataIn).emit (.sample s.i s.j s.inp.dataIn) with
        j := s.j + 1#2, phase := PhaseCode.waitS }
  | sampleLast (h : s.inp.rst = 0#1) (p : s.phase = PhaseCode.sample) (c : s.j = 3#2) :
      Took s (((s.putSample s.inp.dataIn).emit (.sample s.i s.j s.inp.dataIn)).goto PhaseCode.vote)
  | vote (h : s.inp.rst = 0#1) (p : s.phase = PhaseCode.vote) :
      Took s { s with
        acc := setWindowBit s.acc s.i (maj3 s.s1 s.s2 s.s3), ncnt := countNoisy s.ncnt s.s1 s.s2 s.s3
        phase := PhaseCode.fall }
  | fall (h : s.inp.rst = 0#1) (p : s.phase = PhaseCode.fall) : Took s ((s.setClk 0#1).goto PhaseCode.waitL)
  | waitLMore (h : s.inp.rst = 0#1) (p : s.phase = PhaseCode.waitL) (c : s.i.toNat < 23) :
      Took s { s.wait s.params.tL with i := s.i + 1#5, phase := PhaseCode.rise }
  | waitLLast (h : s.inp.rst = 0#1) (p : s.phase = PhaseCode.waitL) (c : 23 ≤ s.i.toNat) :
      Took s ((s.wait s.params.tL).goto PhaseCode.gRise)
  | gRise (h : s.inp.rst = 0#1) (p : s.phase = PhaseCode.gRise) : Took s ((s.setClk 1#1).goto PhaseCode.gWaitH)
  | gWaitH (h : s.inp.rst = 0#1) (p : s.phase = PhaseCode.gWaitH) :
      Took s ((s.wait s.params.tL).goto PhaseCode.gFall)
  | gFallMore (h : s.inp.rst = 0#1) (p : s.phase = PhaseCode.gFall) (c : s.g + 1#2 ≠ s.gain) :
      Took s { s.setClk 0#1 with g := s.g + 1#2, phase := PhaseCode.gWaitL }
  | gFallLast (h : s.inp.rst = 0#1) (p : s.phase = PhaseCode.gFall) (c : s.g + 1#2 = s.gain) :
      Took s { s.setClk 0#1 with g := s.g + 1#2, phase := PhaseCode.csOff }
  | csOff (h : s.inp.rst = 0#1) (p : s.phase = PhaseCode.csOff) : Took s ((s.setCs 0#1).goto PhaseCode.gWaitL)
  | gWaitLMore (h : s.inp.rst = 0#1) (p : s.phase = PhaseCode.gWaitL) (c : s.g.toNat < s.gain.toNat) :
      Took s ((s.wait s.params.tL).goto PhaseCode.gRise)
  | gWaitLLast (h : s.inp.rst = 0#1) (p : s.phase = PhaseCode.gWaitL) (c : s.gain.toNat ≤ s.g.toNat) :
      Took s ((s.wait s.params.tL).goto PhaseCode.sext)
  | sext (h : s.inp.rst = 0#1) (p : s.phase = PhaseCode.sext) :
      Took s { s with val := sext32 s.acc, phase := PhaseCode.complete }
  | complete (h : s.inp.rst = 0#1) (p : s.phase = PhaseCode.complete) :
      Took s ((s.writeResult StatusCode.sample s.val (noisyFlag s.ncnt) s.ncnt).goto PhaseCode.idle)

/-- A phase write that changes nothing. -/
theorem State.goto_self {s : State} {p : BitVec 4} (h : s.phase = p) : s.goto p = s := by
  obtain ⟨⟩ := s; simp_all [State.goto]

/-- Out of reset, what the fetched instruction leaves is one of the ways of `Took`. -/
theorem took_of_exec {s b : State} (h : s.inp.rst = 0#1) (he : exec (decode s.fetchCode) s = .next b) : Took s b := by
  rcases s.fetchCode_cases with ⟨p, c, f⟩ | ⟨hn, f⟩
  · have hr : s.cmdReady = true := (State.cmdReady_iff s).mpr ⟨p, h⟩
    have hb : b = s.accept := by
      rw [f] at he
      have key : s.command s.inp.cmdDiscard = s.accept := by
        simp [State.command, State.offer_of_offered c, hr]
      rcases bit_cases s.inp.cmdDiscard with hd | hd <;> rw [hd] at he key <;>
        simp [exec, execRead, execSetup, key] at he <;> exact he.symm
    exact hb ▸ .accept h p c
  · rw [f] at he
    rcases phase_cases s.phase with p | p | p | p | p | p | p | p | p | p | p | p | p | p | p | p <;> rw [p] at he
    · have c : s.inp.cmdValid = 0#1 := bit_eq_zero_of_ne_one fun c => hn ⟨p, c⟩
      simp [exec, execIdle, c, State.goto_self p] at he
      exact he ▸ .stutter h p c
    · rcases bit_cases s.inp.dataIn with c | c <;> simp [exec, execCheck, State.readData, c] at he
      · exact he ▸ .ready h p c
      · exact he ▸ .notReady h p c
    · simp [exec, execCsOn] at he; exact he ▸ .csOn h p
    · simp [exec, execRise] at he; exact he ▸ .rise h p
    · simp [exec, execWaitS] at he; exact he ▸ .waitS h p
    · by_cases c : s.j.toNat < 3
      · simp [exec, execSample, State.readData, c] at he; exact he ▸ .sampleMore h p c
      · have c' : s.j = 3#2 := BitVec.eq_of_toNat_eq (by have := s.j.isLt; simp; omega)
        simp [exec, execSample, State.readData, c'] at he; simpa [c', ← he] using Took.sampleLast h p c'
    · simp [exec, execVote] at he; exact he ▸ .vote h p
    · simp [exec, execFall] at he; exact he ▸ .fall h p
    · by_cases c : s.i.toNat < 23 <;> simp [exec, execWaitL, c] at he
      · exact he ▸ .waitLMore h p c
      · exact he ▸ .waitLLast h p (by omega)
    · simp [exec, execGRise] at he; exact he ▸ .gRise h p
    · simp [exec, execGWaitH] at he; exact he ▸ .gWaitH h p
    · by_cases c : s.g + 1#2 = s.gain
      · simp only [decode_gFall, exec, execGFall, if_pos c] at he
        cases he; exact .gFallLast h p c
      · simp only [decode_gFall, exec, execGFall, if_neg c] at he
        cases he; exact .gFallMore h p c
    · simp [exec, execCsOff] at he; exact he ▸ .csOff h p
    · by_cases c : s.g.toNat < s.gain.toNat <;> simp [exec, execGWaitL, c] at he
      · exact he ▸ .gWaitLMore h p c
      · exact he ▸ .gWaitLLast h p (by omega)
    · simp [exec, execSext] at he; exact he ▸ .sext h p
    · simp [exec, execComplete] at he; exact he ▸ .complete h p

/-- THE inversion lemma of `step`: a step that answers a next state took one of the ways of `Took`, out of reset with a
valid gain, and then the environment drove the ports. -/
theorem took_of_step {s t : State} (h : step s = .next t) :
    ∃ b, Took s b ∧ t = b.advance s ∧ (s.inp.rst = 0#1 → s.gain ≠ 0#2) := by
  rcases step_cases h with ⟨hr, rfl⟩ | ⟨hr, hg, b, hb, rfl⟩
  · exact ⟨_, .reset hr, rfl, by simp [hr]⟩
  · exact ⟨b, took_of_exec hr hb, rfl, fun _ => hg⟩

/-- The converse: a way of `Took` determines the step. -/
theorem step_eq_of_took {s b : State} (hg : s.inp.rst = 0#1 → s.gain ≠ 0#2) (hb : Took s b) : step s = .next (b.advance s) := by
  rcases bit_cases s.inp.rst with hr | hr
  · obtain ⟨b', hb'⟩ := exec_total (decode s.fetchCode) s
    have := took_of_exec hr hb'
    rw [step_of_exec hr (hg hr) hb']
    congr 2
    cases this <;> cases hb <;> simp_all <;> omega
  · rw [step_of_rst hr]; congr 2; cases hb <;> simp_all

end Sys2Proof.Machine
end

