-- ==== Sys2Proof/Laws/Run.lean ====
section
/-! SUPPORT. Runs of several steps (`Safety.run`), composed from the ways of `Took`: one bit window, the windows of a read,
its gain pulses. -/

namespace Sys2Proof.Machine

/-- The first of several steps. -/
theorem run_succ {n : Nat} {s t : State} (h : step s = .next t) : Safety.run (n+1) s = Safety.run n t := by
  simp only [Safety.run, h]

/-- A run cut in two. -/
theorem run_add (m n : Nat) (s t : State) (h : Safety.run m s = .next t) : Safety.run (m + n) s = Safety.run n t := by
  induction m generalizing s with
  | zero => cases h; simp
  | succ m ih =>
    rw [show m + 1 + n = (m + n) + 1 by omega]
    simp only [Safety.run] at h ⊢
    split at h <;> simp_all

/-- `n` steps lead from `u` to `v`, but for the ports of the last environment move, which do not reset. -/
def Runs (n : Nat) (u v : State) : Prop :=
  ∃ q : PortInputs, q.rst = 0#1 ∧ Safety.run n u = .next { v with inp := q }

/-- One step of `Took`, whose environment move is the script's head. -/
theorem Runs.one {u b v : State} {p ps} (hs : u.script = p :: ps) (hq : p.rst = 0#1) (hg : u.gain ≠ 0#2) (hb : Took u b)
    (hv : ∀ q, { b with inp := q, script := ps, tick := u.tick } = { v with inp := q }) : Runs 1 u v := by
  refine ⟨u.nextInputs, (State.nextInputs_of_script hs).1.trans hq, ?_⟩
  rw [run_succ (step_eq_of_took (fun _ => hg) hb), ← hv]
  simp [State.advance, hs, Safety.run]

/-- One step of `Took`, with the levels of `rst` and DATA in the next step. -/
theorem Runs.one' {u b : State} {p ps} (hs : u.script = p :: ps) (hg : u.gain ≠ 0#2) (hb : Took u b) :
    ∃ q : PortInputs, q.rst = p.rst ∧ q.dataIn = p.dataIn ∧ step u = .next { b with inp := q, script := ps, tick := u.tick } := by
  refine ⟨u.nextInputs, (State.nextInputs_of_script hs).1, (State.nextInputs_of_script hs).2.1, ?_⟩
  rw [step_eq_of_took (fun _ => hg) hb]
  simp [State.advance, hs]

/-- Two runs, one after the other. -/
theorem Runs.comp {m n : Nat} {u v w : State} (h : Runs m u v) (k : ∀ q : PortInputs, q.rst = 0#1 → Runs n { v with inp := q } w) : Runs (m + n) u w := by
  obtain ⟨q, hq, e⟩ := h
  obtain ⟨q', hq', e'⟩ := k q hq
  exact ⟨q', hq', by rw [run_add _ _ _ _ e, e']⟩

/-- WAIT_S and SAMPLE of the first or second sample. -/
theorem sample_more {u : State} (hr : u.inp.rst = 0#1) (hg : u.gain ≠ 0#2) (hp : u.phase = 0x4#4) (hj : u.j.toNat < 3) {p1 p2 : PortInputs} {ps} (hs : u.script = p1 :: p2 :: ps) (h1 : p1.rst = 0#1) (h2 : p2.rst = 0#1) :
    Runs 2 u { u with
      s1 := if u.j = 1#2 then p1.dataIn else u.s1, s2 := if u.j = 2#2 then p1.dataIn else u.s2, j := u.j + 1#2
      trace := u.trace ++ [.wait u.params.tS, .sample u.i u.j p1.dataIn], script := ps } := by
  obtain ⟨q1, a1, d1, e1⟩ := Runs.one' hs hg (.waitS hr hp)
  obtain ⟨q2, a2, d2, e2⟩ := Runs.one' rfl (by exact hg) (.sampleMore (s := { (u.wait u.params.tS).goto PhaseCode.sample with inp := q1, script := p2 :: ps, tick := u.tick }) (a1.trans h1) rfl hj)
  refine ⟨q2, a2.trans h2, ?_⟩
  rw [run_succ e1, run_succ e2]
  have h3 : u.j ≠ 3#2 := by rintro e; simp [e] at hj
  simp [Safety.run, State.emit, State.wait, State.goto, State.putSample, d1, h3, hp]

/-- WAIT_S and SAMPLE of the third sample. -/
theorem sample_last {u : State} (hr : u.inp.rst = 0#1) (hg : u.gain ≠ 0#2) (hp : u.phase = 0x4#4) (hj : u.j = 3#2) {p1 p2 : PortInputs} {ps} (hs : u.script = p1 :: p2 :: ps) (h1 : p1.rst = 0#1) (h2 : p2.rst = 0#1) :
    Runs 2 u { u with
      s3 := p1.dataIn, phase := 0x6#4
      trace := u.trace ++ [.wait u.params.tS, .sample u.i 3#2 p1.dataIn], script := ps } := by
  obtain ⟨q1, a1, d1, e1⟩ := Runs.one' hs hg (.waitS hr hp)
  obtain ⟨q2, a2, d2, e2⟩ := Runs.one' rfl (by exact hg) (.sampleLast (s := { (u.wait u.params.tS).goto PhaseCode.sample with inp := q1, script := p2 :: ps, tick := u.tick }) (a1.trans h1) rfl hj)
  refine ⟨q2, a2.trans h2, ?_⟩
  rw [run_succ e1, run_succ e2]
  simp [Safety.run, State.emit, State.wait, State.goto, State.putSample, d1, hj]

/-- What the ten steps of a bit window leave, given its three samples (spec 41 R100). -/
def afterWindow (u : State) (a b c : BitVec 1) (ps : List PortInputs) : State :=
  { u with
    j := 3#2, s1 := a, s2 := b, s3 := c, clk := 0#1
    acc := setWindowBit u.acc u.i (maj3 a b c), ncnt := countNoisy u.ncnt a b c
    i := if u.i.toNat < 23 then u.i + 1#5 else u.i
    phase := if u.i.toNat < 23 then 0x3#4 else 0x9#4
    trace := u.trace ++ Safety.windowEvents u.params u.i.toNat (a, b, c)
    script := ps }

/-- The ten steps of a bit window. -/
theorem window_run {u : State} (hr : u.inp.rst = 0#1) (hg : u.gain ≠ 0#2) (hp : u.phase = 0x3#4)
    {p1 p2 p3 p4 p5 p6 p7 p8 p9 p10 : PortInputs} {ps} (hs : u.script = p1 :: p2 :: p3 :: p4 :: p5 :: p6 :: p7 :: p8 :: p9 :: p10 :: ps)
    (hq : ∀ p ∈ [p1,p2,p3,p4,p5,p6,p7,p8,p9,p10], p.rst = 0#1) :
    Runs 10 u (afterWindow u p2.dataIn p4.dataIn p6.dataIn ps) := by
  simp only [List.mem_cons, List.not_mem_nil, or_false, forall_eq_or_imp, forall_eq] at hq
  obtain ⟨h1,h2,h3,h4,h5,h6,h7,h8,h9,h10⟩ := hq
  have r1 : Runs 1 u { u with clk := 1#1, j := 1#2, phase := 0x4#4, trace := u.trace ++ [.clkSet 1#1], script := p2 :: p3 :: p4 :: p5 :: p6 :: p7 :: p8 :: p9 :: p10 :: ps } :=
    Runs.one hs h1 hg (.rise hr hp) fun q => rfl
  have r2 : Runs 3 u { u with
      clk := 1#1, j := 2#2, phase := 0x4#4, s1 := p2.dataIn, trace := u.trace ++ [.clkSet 1#1, .wait u.params.tS, .sample u.i 1#2 p2.dataIn]
      script := p4 :: p5 :: p6 :: p7 :: p8 :: p9 :: p10 :: ps } := Runs.comp (n := 2) r1 fun q hq => by
    have h := sample_more (u := { u with
      clk := 1#1, j := 1#2, phase := 0x4#4, trace := u.trace ++ [.clkSet 1#1], inp := q, script := p2 :: p3 :: p4 :: p5 :: p6 :: p7 :: p8 :: p9 :: p10 :: ps }) hq hg rfl (by simp) rfl h2 h3
    simp at h; exact h
  clear r1
  have r3 : Runs 5 u { u with
      clk := 1#1, j := 3#2, phase := 0x4#4, s1 := p2.dataIn, s2 := p4.dataIn, trace := u.trace ++ [.clkSet 1#1, .wait u.params.tS, .sample u.i 1#2 p2.dataIn, .wait u.params.tS, .sample u.i 2#2 p4.dataIn]
      script := p6 :: p7 :: p8 :: p9 :: p10 :: ps } := Runs.comp (n := 2) r2 fun q hq => by
    have h := sample_more (u := { u with
      clk := 1#1, j := 2#2, phase := 0x4#4, s1 := p2.dataIn, trace := u.trace ++ [.clkSet 1#1, .wait u.params.tS, .sample u.i 1#2 p2.dataIn], inp := q, script := p4 :: p5 :: p6 :: p7 :: p8 :: p9 :: p10 :: ps }) hq hg rfl (by simp) rfl h4 h5
    simp at h; exact h
  clear r2
  have r4 : Runs 7 u { u with
      clk := 1#1, j := 3#2, phase := 0x6#4, s1 := p2.dataIn, s2 := p4.dataIn, s3 := p6.dataIn, trace := u.trace ++ [.clkSet 1#1, .wait u.params.tS, .sample u.i 1#2 p2.dataIn, .wait u.params.tS, .sample u.i 2#2 p4.dataIn, .wait u.params.tS, .sample u.i 3#2 p6.dataIn]
      script := p8 :: p9 :: p10 :: ps } := Runs.comp (n := 2) r3 fun q hq => by
    have h := sample_last (u := { u with
      clk := 1#1, j := 3#2, phase := 0x4#4, s1 := p2.dataIn, s2 := p4.dataIn, trace := u.trace ++ [.clkSet 1#1, .wait u.params.tS, .sample u.i 1#2 p2.dataIn, .wait u.params.tS, .sample u.i 2#2 p4.dataIn], inp := q, script := p6 :: p7 :: p8 :: p9 :: p10 :: ps }) hq hg rfl rfl rfl h6 h7
    simp at h; exact h
  clear r3
  have r5 := Runs.comp (n := 1) r4 fun q hq => Runs.one (v := { u with
      clk := 1#1, j := 3#2, phase := 0x7#4, s1 := p2.dataIn, s2 := p4.dataIn, s3 := p6.dataIn
      acc := setWindowBit u.acc u.i (maj3 p2.dataIn p4.dataIn p6.dataIn), ncnt := countNoisy u.ncnt p2.dataIn p4.dataIn p6.dataIn
      trace := u.trace ++ [.clkSet 1#1, .wait u.params.tS, .sample u.i 1#2 p2.dataIn, .wait u.params.tS, .sample u.i 2#2 p4.dataIn, .wait u.params.tS, .sample u.i 3#2 p6.dataIn]
      script := p9 :: p10 :: ps }) rfl h8 (by exact hg) (.vote (by exact hq) rfl) (fun q => by simp)
  clear r4
  have r6 := Runs.comp (n := 1) r5 fun q hq => Runs.one (v := { u with
      clk := 0#1, j := 3#2, phase := 0x8#4, s1 := p2.dataIn, s2 := p4.dataIn, s3 := p6.dataIn
      acc := setWindowBit u.acc u.i (maj3 p2.dataIn p4.dataIn p6.dataIn), ncnt := countNoisy u.ncnt p2.dataIn p4.dataIn p6.dataIn
      trace := u.trace ++ [.clkSet 1#1, .wait u.params.tS, .sample u.i 1#2 p2.dataIn, .wait u.params.tS, .sample u.i 2#2 p4.dataIn, .wait u.params.tS, .sample u.i 3#2 p6.dataIn, .clkSet 0#1]
      script := p10 :: ps }) rfl h9 (by exact hg) (.fall (by exact hq) rfl) (fun q => by simp [State.setClk, State.emit, State.goto])
  refine Runs.comp (n := 1) r6 fun q hq => ?_
  by_cases hi : u.i.toNat < 23
  · exact Runs.one rfl h10 (by exact hg) (.waitLMore (by exact hq) rfl hi) fun q => by
      simp [afterWindow, hi, Safety.windowEvents, State.wait, State.emit]
  · exact Runs.one rfl h10 (by exact hg) (.waitLLast (by exact hq) rfl (by simpa using hi)) fun q => by
      simp [afterWindow, hi, Safety.windowEvents, State.wait, State.emit, State.goto]

/-- What a bit window never changes. -/
def Kept (u v : State) : Prop :=
  v.params = u.params ∧ v.gain = u.gain ∧ v.disc = u.disc ∧ v.cs = u.cs ∧ v.g = u.g

/-- The bit windows from `u.i` to 23. -/
theorem windows_run (m : Nat) : ∀ {u : State}, u.inp.rst = 0#1 → u.gain ≠ 0#2 → u.phase = 0x3#4 → u.i.toNat + (m + 1) = 24 →
    u.ncnt.toNat ≤ u.i.toNat → Safety.unvotedClear u.acc u.i.toNat →
    ∀ {L rest : List PortInputs}, u.script = L ++ rest → L.length = 10 * (m + 1) → (∀ p ∈ L, p.rst = 0#1) →
    ∀ f : Nat → BitVec 1 × BitVec 1 × BitVec 1,
      (∀ w, w < m + 1 → f (u.i.toNat + w) = (Safety.levelAt L (10 * w + 1), Safety.levelAt L (10 * w + 3), Safety.levelAt L (10 * w + 5))) →
    ∃ v, Runs (10 * (m + 1)) u v ∧ Kept u v ∧ v.phase = 0x9#4 ∧ v.script = rest ∧
      (∀ w, w < 24 → v.acc.getLsbD (23 - w) = if w < u.i.toNat then u.acc.getLsbD (23 - w) else (maj3 (f w).1 (f w).2.1 (f w).2.2).getLsbD 0) ∧
      v.ncnt.toNat = u.ncnt.toNat + (List.range' u.i.toNat (m + 1)).countP (fun w => noisy3 (f w).1 (f w).2.1 (f w).2.2 == 1#1) ∧
      v.trace = u.trace ++ (List.range' u.i.toNat (m + 1)).flatMap (fun w => Safety.windowEvents u.params w (f w)) := by
  induction m with
  | zero =>
    intro u hr hg hp hi hn hc L rest hs hl hq f hf
    match L, hl with
    | [p1, p2, p3, p4, p5, p6, p7, p8, p9, p10], _ =>
    have h0 := hf 0 (by omega)
    simp [Safety.levelAt] at h0
    refine ⟨_, window_run hr hg hp (ps := rest) hs hq, ⟨rfl, rfl, rfl, rfl, rfl⟩, ?_, rfl, ?_, ?_, ?_⟩
    · simp [afterWindow]; omega
    · intro w hw
      simp only [afterWindow]
      rw [setWindowBit_getLsbD (by omega)]
      split
      · rename_i h; simp; omega
      · rename_i h
        have : w = u.i.toNat := by omega
        subst this
        rw [hc _ (by omega) (le_refl _), h0]; simp
    · simp only [afterWindow]
      rw [countNoisy_toNat (by omega)]
      simp [h0]
      rcases bit_cases (noisy3 p2.dataIn p4.dataIn p6.dataIn) with e | e <;> simp [e]
    · simp [afterWindow, h0]
  | succ m ih =>
    intro u hr hg hp hi hn hc L rest hs hl hq f hf
    match L, hl with
    | p1 :: p2 :: p3 :: p4 :: p5 :: p6 :: p7 :: p8 :: p9 :: p10 :: L', hl =>
    have h0 := hf 0 (by omega)
    simp [Safety.levelAt] at h0
    have hw := window_run hr hg hp (ps := L' ++ rest) (by simpa using hs) (fun p hp => hq p (by
      simp only [List.mem_cons, List.not_mem_nil, or_false] at hp ⊢; tauto))
    have hi23 : u.i.toNat < 23 := by omega
    have hinc : (u.i + 1#5).toNat = u.i.toNat + 1 := by rw [BitVec.toNat_add]; simp; omega
    set a := p2.dataIn
    set b := p4.dataIn
    set c := p6.dataIn
    have ih' := fun q (hqr : PortInputs.rst q = 0#1) => ih (u := { afterWindow u a b c (L' ++ rest) with inp := q }) hqr hg (by simp [afterWindow, hi23])
      (by simp only [afterWindow, hi23, if_true]; omega)
      (by simp only [afterWindow, hi23, if_true]; have := countNoisy_toNat_le (n := u.ncnt) (by omega) a b c; omega)
      (by
        simp only [afterWindow, hi23, if_true, hinc]
        intro k hk hk'
        rw [setWindowBit_getLsbD (by omega), hc k hk (by omega)]
        simp; omega)
      (L := L') (rest := rest) rfl (by simp at hl; omega) (fun p hp => hq p (by simp [hp])) f
      (by
        intro w hw
        simp only [afterWindow, hi23, if_true, hinc]
        rw [show u.i.toNat + 1 + w = u.i.toNat + (w + 1) by omega, hf (w + 1) (by omega)]
        simp [Safety.levelAt, show 10 * (w + 1) = 10 * w + 10 by ring])
    obtain ⟨q0, hq0, e0⟩ := hw
    obtain ⟨v, hv, hk, hph, hsc, hacc, hnc, htr⟩ := ih' q0 hq0
    refine ⟨v, ?_, hk, hph, hsc, ?_, ?_, ?_⟩
    · obtain ⟨q1, hq1, e1⟩ := hv
      exact ⟨q1, hq1, by rw [show 10 * (m + 1 + 1) = 10 + 10 * (m + 1) by ring, run_add _ _ _ _ e0, e1]⟩
    · intro w hw
      rw [hacc w hw]
      simp only [afterWindow, hi23, if_true, hinc]
      rw [setWindowBit_getLsbD (by omega)]
      by_cases h1 : w < u.i.toNat
      · simp [h1, show w < u.i.toNat + 1 by omega]; omega
      · by_cases h2 : w = u.i.toNat
        · subst h2; simp [hc _ hw (le_refl _), h0, a, b, c]
        · simp [h1, show ¬ w < u.i.toNat + 1 by omega]
    · rw [hnc]
      simp only [afterWindow, hi23, if_true, hinc]
      rw [countNoisy_toNat (by omega), List.range'_succ (n := m + 1)]
      simp only [List.countP_cons, h0]
      rcases bit_cases (noisy3 a b c) with e | e <;> simp [a, b, c] at e <;> simp [e, a, b, c] <;> omega
    · rw [htr]
      simp only [afterWindow, hi23, if_true, hinc]
      rw [List.range'_succ (n := m + 1)]
      simp [h0, a, b, c]

/-- The gain pulses still to come and CS_OFF (spec 42 R130 to R134). -/
theorem pulses_run (r : Nat) : ∀ {u : State}, u.inp.rst = 0#1 → u.gain ≠ 0#2 → u.phase = 0x9#4 → u.g.toNat + (r + 1) = u.gain.toNat →
    ∀ {L rest : List PortInputs}, u.script = L ++ rest → L.length = 4 * (r + 1) + 1 → (∀ p ∈ L, p.rst = 0#1) →
    Runs (4 * (r + 1) + 1) u { u with
      clk := 0#1, cs := 0#1, g := u.gain, phase := 0xE#4, script := rest
      trace := u.trace ++ ((List.replicate r (Safety.pulseEvents u.params)).flatten ++ Safety.lastPulseEvents u.params) } := by
  induction r with
  | zero =>
    intro u hr hg hp hi L rest hs hl hq
    match L, hl with
    | [p1, p2, p3, p4, p5], _ =>
    simp only [List.mem_cons, List.not_mem_nil, or_false, forall_eq_or_imp, forall_eq] at hq
    obtain ⟨h1,h2,h3,h4,h5⟩ := hq
    have hlt := u.gain.isLt
    have e : u.g + 1#2 = u.gain := BitVec.eq_of_toNat_eq (by rw [BitVec.toNat_add]; simp; omega)
    have r1 : Runs 1 u { u with clk := 1#1, phase := 0xA#4, trace := u.trace ++ [.clkSet 1#1], script := p2 :: p3 :: p4 :: p5 :: rest } :=
      Runs.one hs h1 hg (.gRise hr hp) fun q => rfl
    have r2 := Runs.comp (n := 1) r1 fun q hq => Runs.one (v := { u with
        clk := 1#1, phase := 0xB#4, trace := u.trace ++ [.clkSet 1#1, .wait u.params.tL], script := p3 :: p4 :: p5 :: rest }) rfl h2 (by exact hg) (.gWaitH (by exact hq) rfl) (fun q => by simp [State.wait, State.emit, State.goto])
    have r3 := Runs.comp (n := 1) r2 fun q hq => Runs.one (v := { u with
        clk := 0#1, g := u.gain, phase := 0xC#4, trace := u.trace ++ [.clkSet 1#1, .wait u.params.tL, .clkSet 0#1], script := p4 :: p5 :: rest }) rfl h3 (by exact hg) (.gFallLast (by exact hq) rfl e) (fun q => by simp [State.setClk, State.emit, e])
    have r4 := Runs.comp (n := 1) r3 fun q hq => Runs.one (v := { u with
        clk := 0#1, cs := 0#1, g := u.gain, phase := 0xD#4, trace := u.trace ++ [.clkSet 1#1, .wait u.params.tL, .clkSet 0#1, .csSet 0#1], script := p5 :: rest }) rfl h4 (by exact hg) (.csOff (by exact hq) rfl) (fun q => by simp [State.setCs, State.emit, State.goto])
    exact Runs.comp (n := 1) r4 fun q hq => Runs.one rfl h5 (by exact hg) (.gWaitLLast (by exact hq) rfl (le_refl _)) (fun q => by simp [State.wait, State.emit, State.goto, Safety.lastPulseEvents])
  | succ r ih =>
    intro u hr hg hp hi L rest hs hl hq
    match L, hl with
    | p1 :: p2 :: p3 :: p4 :: L', hl =>
    simp only [List.mem_cons, forall_eq_or_imp] at hq
    obtain ⟨h1,h2,h3,h4,hq⟩ := hq
    have hlt := u.gain.isLt
    have eg : (u.g + 1#2).toNat = u.g.toNat + 1 := by rw [BitVec.toNat_add]; simp; omega
    have e : u.g + 1#2 ≠ u.gain := fun h => by rw [← h] at hi; omega
    have r1 : Runs 1 u { u with clk := 1#1, phase := 0xA#4, trace := u.trace ++ [.clkSet 1#1], script := p2 :: p3 :: p4 :: L' ++ rest } :=
      Runs.one (by simpa using hs) h1 hg (.gRise hr hp) fun q => rfl
    have r2 := Runs.comp (n := 1) r1 fun q hq => Runs.one (v := { u with
        clk := 1#1, phase := 0xB#4, trace := u.trace ++ [.clkSet 1#1, .wait u.params.tL], script := p3 :: p4 :: L' ++ rest }) rfl h2 (by exact hg) (.gWaitH (by exact hq) rfl) (fun q => by simp [State.wait, State.emit, State.goto])
    have r3 := Runs.comp (n := 1) r2 fun q hq => Runs.one (v := { u with
        clk := 0#1, g := u.g + 1#2, phase := 0xD#4, trace := u.trace ++ [.clkSet 1#1, .wait u.params.tL, .clkSet 0#1], script := p4 :: L' ++ rest }) rfl h3 (by exact hg) (.gFallMore (by exact hq) rfl e) (fun q => by simp [State.setClk, State.emit])
    have r4 := Runs.comp (n := 1) r3 fun q hq => Runs.one (v := { u with
        clk := 0#1, g := u.g + 1#2, phase := 0x9#4, trace := u.trace ++ Safety.pulseEvents u.params, script := L' ++ rest }) rfl h4 (by exact hg) (.gWaitLMore (by exact hq) rfl (by show (u.g + 1#2).toNat < u.gain.toNat; omega)) (fun q => by simp [State.wait, State.emit, State.goto, Safety.pulseEvents])
    have r5 : Runs (1 + 1 + 1 + 1 + (4 * (r + 1) + 1)) u { u with
        clk := 0#1, cs := 0#1, g := u.gain, phase := 0xE#4, script := rest
        trace := (u.trace ++ Safety.pulseEvents u.params) ++ ((List.replicate r (Safety.pulseEvents u.params)).flatten ++ Safety.lastPulseEvents u.params) } :=
      Runs.comp (n := 4 * (r + 1) + 1) r4 fun q hq' => ih (u := { u with
        clk := 0#1, g := u.g + 1#2, phase := 0x9#4, trace := u.trace ++ Safety.pulseEvents u.params, script := L' ++ rest, inp := q }) hq' hg rfl (by show (u.g + 1#2).toNat + (r + 1) = u.gain.toNat; omega) rfl (by simp at hl; omega) hq
    rw [show 4 * (r + 1 + 1) + 1 = 1 + 1 + 1 + 1 + (4 * (r + 1) + 1) by ring]
    obtain ⟨q, hq, e⟩ := r5
    refine ⟨q, hq, e.trans ?_⟩
    simp [List.replicate_succ]

end Sys2Proof.Machine
end

