-- ==== Sys2Proof/Machine/HostProgram.lean ====
section
/-! DEFINITION. The host as an agent that runs a program of lines (spec 30 R89), beside the block: which ports a line drives
and when it is finished. `step` does not depend on this file (log entry 22). -/

namespace Sys2Proof.Machine

/-- The result ports an EXPECT line can name (spec 30 R89: `res_*`). -/
inductive ResultPort where
  | status
  | value
  | noisy
  | ncnt
  | discard
  deriving DecidableEq, Repr

/-- The lines of a host program (spec 30 R89). -/
inductive HostLine where
  /-- `READ` -/
  | read
  /-- `SETUP` -/
  | setup
  /-- `POLL` -/
  | poll
  /-- `EXPECT field = value` -/
  | expect (field : ResultPort) (value : Nat)
  /-- `; text` -/
  | comment
  deriving DecidableEq, Repr

/-- What a result port shows, as a number. -/
def State.resultPort (s : State) : ResultPort → Nat
  | .status => s.resStatus.toNat
  | .value => s.resValue.toNat
  | .noisy => s.resNoisy.toNat
  | .ncnt => s.resNcnt.toNat
  | .discard => s.resDiscard.toNat

/-- The command a line offers, if it offers one (spec 30 R70, R89). -/
def HostLine.offers : HostLine → Option (BitVec 1)
  | .read => some 0#1
  | .setup => some 1#1
  | .poll | .expect _ _ | .comment => none

/-- A line that is over without a block step: an EXPECT, a comment, or a POLL that sees `busy = 0`. -/
def HostLine.passed (l : HostLine) (s : State) : Bool :=
  match l with
  | .read | .setup => false
  | .poll => !s.busy
  | .expect _ _ | .comment => true

/-- Does the line's assertion hold? Only EXPECT asserts anything. -/
def HostLine.holds (l : HostLine) (s : State) : Bool :=
  match l with
  | .expect field value => s.resultPort field == value
  | .read | .setup | .poll | .comment => true

/-- The command port as the host drives it while `offered` is the command of its current line. -/
def State.driveCommand (s : State) (offered : Option (BitVec 1)) : State :=
  match offered with
  | some d => s.offer d
  | none => { s with inp := { s.inp with cmdValid := 0#1 } }

/-- A host running a program beside the block. -/
structure HostRun where
  /-- the lines still to run -/
  lines : List HostLine
  /-- the lines whose assertion failed, oldest first -/
  failed : List HostLine
  /-- the block -/
  block : State
  deriving DecidableEq, Repr

/-- One move of host and block: a passed line is dropped with no block step; else the block takes one step with the
line's command on the port, and a command line is over when that step accepts it (spec 40 R90, 30 R89). -/
def HostRun.next (h : HostRun) : Host.Outcome HostRun Fault Refusal :=
  match h.lines with
  | [] => .next h
  | l :: rest =>
    if l.passed h.block then
      .next { h with lines := rest, failed := if l.holds h.block then h.failed else h.failed ++ [l] }
    else
      let driven := h.block.driveCommand l.offers
      match step driven with
      | .next b =>
        .next { h with lines := if l.offers.isSome && driven.cmdReady then rest else h.lines, block := b }
      | .fault r => .fault r
      | .refused r => .refused r

/-- `k` moves. -/
def HostRun.run : Nat → HostRun → Host.Outcome HostRun Fault Refusal
  | 0, h => .next h
  | k + 1, h =>
    match h.next with
    | .next h' => h'.run k
    | .fault r => .fault r
    | .refused r => .refused r

/-- The `DATA:` annotation of a read (spec 30 R89): the readiness level and, per window, the three samples. -/
structure DataLine where
  ready : BitVec 1
  windows : List (BitVec 1 × BitVec 1 × BitVec 1)
  deriving DecidableEq, Repr

/-- `unanimous(x)` (spec 30 R89): window `i`'s three samples all equal bit `23 - i` of `x`. -/
def unanimousWindows (x : BitVec 24) : List (BitVec 1 × BitVec 1 × BitVec 1) :=
  (List.range 24).map fun i => let b := BitVec.ofBool (x.getLsbD (23 - i)); (b, b, b)

/-- The levels of DATA an annotation gives, one per step of a read after the accepting one: CHECK reads the readiness
level, the three SAMPLE steps of a window its samples, and no other step reads DATA (spec 41 R100, 20 R52). -/
def DataLine.levels (d : DataLine) : List (BitVec 1) :=
  [d.ready, 0#1] ++ d.windows.flatMap fun w => [0#1, 0#1, w.1, 0#1, w.2.1, 0#1, w.2.2, 0#1, 0#1, 0#1]

end Sys2Proof.Machine
end

