-- ==== Sys2Proof/Tests/Slice0.lean ====
section
/-! SUPPORT. The model's own tests. Expected values come from spec 95 (tables T1 to T8, programs P1 to P6) and from the rules
cited; each test is one decoding or one step. The witnesses at the end meet the hypotheses of the obligations. -/

namespace Sys2Proof.Tests

open Sys2Proof.Machine

/-! ## Small states -/

/-- Input ports at rest: no reset, gain 1, no command, DATA low. -/
def quiet : PortInputs := ⟨0#1, 1#2, 0#1, 0#1, 0#1⟩

/-- A reset step with `cfg_gain = 3`. -/
def resetting : PortInputs := ⟨1#1, 3#2, 0#1, 0#1, 0#1⟩

/-- DATA high. -/
def dataHigh : PortInputs := { quiet with dataIn := 1#1 }

/-- A command offered. -/
def offering (d : BitVec 1) : PortInputs := { quiet with cmdValid := 1#1, cmdDiscard := d }

/-- A block of gain 2 in phase `p` with the lines at the given levels, the environment quiet for three more steps. -/
def during (p : BitVec 4) (clk cs : BitVec 1) : State :=
  { State.reset with gain := 2#2, phase := p, clk := clk, cs := cs, script := [quiet, quiet, quiet] }

/-- The block at rest between two reads. -/
def resting : State := during 0x0#4 0#1 0#1
/-- In CHECK. -/
def checking : State := during 0x1#4 0#1 0#1
/-- In CS_ON. -/
def entering : State := during 0x2#4 0#1 0#1
/-- In RISE of window 0. -/
def rising : State := during 0x3#4 0#1 1#1
/-- In WAIT_S before sample `j`. -/
def settling (j : BitVec 2) : State := { during 0x4#4 1#1 1#1 with j := j }
/-- In SAMPLE of sample `j`. -/
def sampling (j : BitVec 2) : State := { during 0x5#4 1#1 1#1 with j := j }
/-- In VOTE of window `i`. -/
def voting (i : BitVec 5) (acc : BitVec 24) (n : BitVec 5) (s1 s2 s3 : BitVec 1) : State :=
  { during 0x6#4 1#1 1#1 with i := i, acc := acc, ncnt := n, j := 3#2, s1 := s1, s2 := s2, s3 := s3 }
/-- In FALL of window 0. -/
def falling : State := during 0x7#4 1#1 1#1
/-- In WAIT_L of window `i`. -/
def lowIn (i : BitVec 5) : State := { during 0x8#4 0#1 1#1 with i := i }
/-- In G_RISE after `g` pulses. -/
def pulseRising (g : BitVec 2) : State := { during 0x9#4 0#1 1#1 with i := 23#5, g := g }
/-- In G_WAIT_H. -/
def pulseHigh : State := { during 0xA#4 1#1 1#1 with i := 23#5 }
/-- In G_FALL after `g` pulses. -/
def pulseFalling (g : BitVec 2) : State := { during 0xB#4 1#1 1#1 with i := 23#5, g := g }
/-- In CS_OFF. -/
def leaving : State := { during 0xC#4 0#1 1#1 with i := 23#5, g := 2#2 }
/-- In G_WAIT_L with a pulse left. -/
def pulseLow : State := { during 0xD#4 0#1 1#1 with i := 23#5, g := 1#2 }
/-- In G_WAIT_L after CS_OFF. -/
def lastLow : State := { during 0xD#4 0#1 0#1 with i := 23#5, g := 2#2 }
/-- In SEXT with the accumulator of T3. -/
def extending (acc : BitVec 24) : State := { during 0xE#4 0#1 0#1 with i := 23#5, g := 2#2, acc := acc }
/-- In COMPLETE with the rows of T7. -/
def completing (val : BitVec 32) (acc : BitVec 24) (n : BitVec 5) (d : BitVec 1) : State :=
  { during 0xF#4 0#1 0#1 with i := 23#5, g := 2#2, acc := acc, val := val, ncnt := n, disc := d }

/-- The next state of an outcome, if it is one. -/
def next? (o : Host.Outcome State Fault Refusal) : Option State :=
  match o with
  | .next t => some t
  | .fault _ => none
  | .refused _ => none

/-- A field of the next state of a step. -/
def stepTo {α : Type} (s : State) (f : State → α) : Option α := (next? (step s)).map f

/-- A field of the next state of an instruction. -/
def execTo {α : Type} (i : Instr) (s : State) (f : State → α) : Option α := (next? (exec i s)).map f

/-! ## Well-formedness: an ill-formed term for each check -/

/-- 30 R88: no format is 2 bits wide. -/
theorem test_ill_formed_width : RawWord.wellFormed ⟨2, 1⟩ = false := by decide
/-- 30 R88: 2 does not fit one bit. -/
theorem test_ill_formed_command_value : RawWord.wellFormed ⟨1, 2⟩ = false := by decide
/-- 30 R88: 16 does not fit four bits. -/
theorem test_ill_formed_phase_value : RawWord.wellFormed ⟨4, 16⟩ = false := by decide
/-- The same three, rejected by name in the decoder. -/
theorem test_rejected_by_name :
    decodeRaw ⟨2, 1⟩ = .error (.noFormatOfWidth 2) ∧ decodeRaw ⟨1, 2⟩ = .error (.valueTooWide 1 2) ∧
    decodeRaw ⟨4, 16⟩ = .error (.valueTooWide 4 16) := ⟨rfl, rfl, rfl⟩
/-- 30 R75: gain 0b00 is refused, 0b01 to 0b11 are not. -/
theorem test_ill_formed_gain :
    gainWellFormed 0b00#2 = false ∧ gainWellFormed 0b01#2 = true ∧ gainWellFormed 0b11#2 = true := by decide
/-- 30 R74: the gain field is an unsigned pulse count. -/
theorem test_gain_pulses : gainPulses 0b01#2 = 1 ∧ gainPulses 0b10#2 = 2 ∧ gainPulses 0b11#2 = 3 := by decide

/-! ## Decoding: words written out from spec 30 R70 and R80 -/

/-- Format CMD (30 R70). -/
theorem test_decode_commands : decode (.cmd 0b0#1) = .read ∧ decode (.cmd 0b1#1) = .setup := by decide
/-- IDLE and the readiness check (30 R80, values 0x0 to 0x2). -/
theorem test_decode_start :
    decode (.phase 0b0000#4) = .idle ∧ decode (.phase 0b0001#4) = .check ∧ decode (.phase 0b0010#4) = .csOn := by decide
/-- The bit window (30 R80, values 0x3 to 0x8). -/
theorem test_decode_window :
    decode (.phase 0b0011#4) = .rise ∧ decode (.phase 0b0100#4) = .waitS ∧ decode (.phase 0b0101#4) = .sample ∧
    decode (.phase 0b0110#4) = .vote ∧ decode (.phase 0b0111#4) = .fall ∧ decode (.phase 0b1000#4) = .waitL := by decide
/-- The gain pulses (30 R80, values 0x9 to 0xD). -/
theorem test_decode_pulses :
    decode (.phase 0b1001#4) = .gRise ∧ decode (.phase 0b1010#4) = .gWaitH ∧ decode (.phase 0b1011#4) = .gFall ∧
    decode (.phase 0b1100#4) = .csOff ∧ decode (.phase 0b1101#4) = .gWaitL := by decide
/-- Extension and completion (30 R80, values 0xE and 0xF). -/
theorem test_decode_end : decode (.phase 0b1110#4) = .sext ∧ decode (.phase 0b1111#4) = .complete := by decide
/-- The opcode table's words, at the table's widths. -/
theorem test_decode_table_word :
    decodeTableWord 1 0b0 = some .read ∧ decodeTableWord 1 0b1 = some .setup ∧
    decodeTableWord 4 0x0 = some .idle ∧ decodeTableWord 4 0xF = some .complete ∧
    decodeTableWord 8 0x5 = some .sample ∧ decodeTableWord 4 16 = none := by decide
/-- What `withFetchWord` places runs in the next step: SETUP is accepted, RISE raises CLK, G_FALL counts. -/
theorem test_fetch_placed_word :
    stepTo (State.reset.withFetchWord 1 1) (fun t => (t.phase, t.disc)) = some (0x1#4, 1#1) ∧
    stepTo (State.reset.withFetchWord 4 0x3) (fun t => (t.phase, t.clk)) = some (0x4#4, 1#1) ∧
    stepTo (State.reset.withFetchWord 4 0xB) (fun t => (t.phase, t.g)) = some (0xC#4, 1#2) := by decide

/-! ## One step per instruction -/

/-- T5 row 2. -/
theorem test_read_accepted :
    stepTo { resting with inp := offering 0#1, acc := 0xFFFFFF#24, ncnt := 24#5 }
      (fun t => (t.phase, t.disc, t.acc, t.ncnt, t.trace)) =
      some (0x1#4, 0#1, 0#24, 0#5, [.reset, .accept 0#1]) := by decide
/-- T5 row 3. -/
theorem test_setup_accepted :
    stepTo { resting with inp := offering 1#1 } (fun t => (t.phase, t.disc, t.trace)) =
      some (0x1#4, 1#1, [.reset, .accept 1#1]) := by decide
/-- T5 row 4: not accepted while busy, and the offer stays. -/
theorem test_setup_while_busy :
    stepTo { lowIn 0#5 with inp := offering 1#1 } (fun t => (t.phase, t.disc, t.inp.cmdValid, t.inp.cmdDiscard)) =
      some (0x3#4, 0#1, 1#1, 1#1) := by decide
/-- 40 R90: a READ that is not accepted does not start a read. -/
theorem test_read_not_accepted :
    execTo .read falling (fun t => (t.phase, t.trace, t.inp.cmdValid)) = some (0x7#4, [.reset], 1#1) := by decide
/-- T5 row 1. -/
theorem test_idle_stutters : execTo .idle resting (fun t => decide (t = resting)) = some true := by decide
/-- T5 row 2, as IDLE's own branch. -/
theorem test_idle_accepts :
    execTo .idle { resting with inp := offering 1#1, val := 7#32, s3 := 1#1 } (fun t => (t.phase, t.disc, t.val, t.s3)) =
      some (0x1#4, 1#1, 0#32, 0#1) := by decide
/-- T4 row 2. -/
theorem test_check_not_ready :
    execTo .check { checking with inp := dataHigh, disc := 1#1, resStatus := 0b10#2, resValue := 0x1234#32,
                                  resNoisy := 1#1, resNcnt := 3#5 }
      (fun t => (t.phase, Safety.results t, t.trace)) =
      some (0x0#4, (0b01#2, 0#32, 0#1, 0#5, 1#1), [.reset, .ready 1#1, .result 0b01#2 0#32 0#1 0#5 1#1]) := rfl
/-- T4 row 4. -/
theorem test_check_ready :
    execTo .check { checking with disc := 1#1, resStatus := 0b10#2, resValue := 0x1234#32, resNoisy := 1#1, resNcnt := 3#5 }
      (fun t => (t.phase, Safety.results t, t.trace)) =
      some (0x2#4, (0b10#2, 0x1234#32, 1#1, 3#5, 0#1), [.reset, .ready 0#1]) := rfl
/-- 41 R102. -/
theorem test_csOn : execTo .csOn entering (fun t => (t.phase, t.cs, t.trace)) =
    some (0x3#4, 1#1, [.reset, .csSet 1#1]) := by decide
/-- 41 R103. -/
theorem test_rise : execTo .rise rising (fun t => (t.phase, t.clk, t.j, t.trace)) =
    some (0x4#4, 1#1, 1#2, [.reset, .clkSet 1#1]) := by decide
/-- 41 R104, at the T_S of T6's last corner case. -/
theorem test_waitS : execTo .waitS { settling 2#2 with params := ⟨2, 5, 1⟩ } (fun t => (t.phase, t.j, t.trace)) =
    some (0x5#4, 2#2, [.reset, .wait 2]) := by decide
/-- 41 R105, a sample that is not the last: S2 and nothing else. -/
theorem test_sample_second :
    execTo .sample { sampling 2#2 with inp := dataHigh } (fun t => (t.phase, t.j, t.s1, t.s2, t.s3, t.trace)) =
      some (0x4#4, 3#2, 0#1, 1#1, 0#1, [.reset, .sample 0#5 2#2 1#1]) := rfl
/-- 41 R105, the last sample: J stays 3. -/
theorem test_sample_third :
    execTo .sample { sampling 3#2 with inp := dataHigh, i := 23#5 } (fun t => (t.phase, t.j, t.s3, t.trace)) =
      some (0x6#4, 3#2, 1#1, [.reset, .sample 23#5 3#2 1#1]) := by decide
/-- T1: all eight rows, as the accumulator and the count after VOTE. -/
theorem test_vote_all_samples :
    [(0#1, 0#1, 0#1), (0#1, 0#1, 1#1), (0#1, 1#1, 0#1), (1#1, 0#1, 0#1),
      (0#1, 1#1, 1#1), (1#1, 0#1, 1#1), (1#1, 1#1, 0#1), (1#1, 1#1, 1#1)].map
        (fun v => execTo .vote (voting 0#5 0#24 0#5 v.1 v.2.1 v.2.2) fun t => (t.acc, t.ncnt)) =
      [some (0#24, 0#5), some (0#24, 1#5), some (0#24, 1#5), some (0#24, 1#5),
        some (0x800000#24, 1#5), some (0x800000#24, 1#5), some (0x800000#24, 1#5), some (0x800000#24, 0#5)] := by decide
/-- T2: rows 3, 4, 5 and 8. -/
theorem test_vote_places_bits :
    execTo .vote (voting 7#5 0#24 3#5 0#1 1#1 1#1) (fun t => (t.acc, t.ncnt)) = some (0x010000#24, 4#5) ∧
    execTo .vote (voting 8#5 0x010000#24 4#5 1#1 0#1 0#1) (fun t => (t.acc, t.ncnt)) = some (0x010000#24, 5#5) ∧
    execTo .vote (voting 22#5 0#24 0#5 1#1 1#1 1#1) (fun t => (t.acc, t.ncnt)) = some (0x000002#24, 0#5) ∧
    execTo .vote (voting 23#5 0xFFFFFE#24 23#5 1#1 0#1 1#1) (fun t => (t.acc, t.ncnt)) = some (0xFFFFFF#24, 24#5) := by
  decide
/-- 41 R115. -/
theorem test_fall : execTo .fall falling (fun t => (t.phase, t.clk, t.cs, t.trace)) =
    some (0x8#4, 0#1, 1#1, [.reset, .clkSet 0#1]) := by decide
/-- 41 R116: the window before the last. -/
theorem test_waitL_next_window : execTo .waitL (lowIn 22#5) (fun t => (t.phase, t.i, t.trace)) =
    some (0x3#4, 23#5, [.reset, .wait 3]) := by decide
/-- 41 R116: the last window. -/
theorem test_waitL_last_window : execTo .waitL (lowIn 23#5) (fun t => (t.phase, t.i, t.trace)) =
    some (0x9#4, 23#5, [.reset, .wait 3]) := by decide
/-- 42 R130. -/
theorem test_gRise : execTo .gRise (pulseRising 1#2) (fun t => (t.phase, t.clk, t.g, t.trace)) =
    some (0xA#4, 1#1, 1#2, [.reset, .clkSet 1#1]) := by decide
/-- 42 R131: the high wait is T_L, not T_S. -/
theorem test_gWaitH : execTo .gWaitH pulseHigh (fun t => (t.phase, t.clk, t.trace)) =
    some (0xB#4, 1#1, [.reset, .wait 3]) := by decide
/-- 42 R132: a pulse that is not the last. -/
theorem test_gFall_more : execTo .gFall (pulseFalling 0#2) (fun t => (t.phase, t.clk, t.g, t.cs)) =
    some (0xD#4, 0#1, 1#2, 1#1) := by decide
/-- 42 R132: the last pulse. -/
theorem test_gFall_last : execTo .gFall (pulseFalling 1#2) (fun t => (t.phase, t.clk, t.g, t.cs)) =
    some (0xC#4, 0#1, 2#2, 1#1) := by decide
/-- 42 R133. -/
theorem test_csOff : execTo .csOff leaving (fun t => (t.phase, t.cs, t.trace)) =
    some (0xD#4, 0#1, [.reset, .csSet 0#1]) := by decide
/-- 42 R134: pulses left. -/
theorem test_gWaitL_more : execTo .gWaitL pulseLow (fun t => (t.phase, t.g, t.trace)) =
    some (0x9#4, 1#2, [.reset, .wait 3]) := by decide
/-- 42 R134: no pulse left. -/
theorem test_gWaitL_last : execTo .gWaitL lastLow (fun t => (t.phase, t.g, t.trace)) =
    some (0xE#4, 2#2, [.reset, .wait 3]) := by decide
/-- T3: the maximum, bit 22 alone, the minimum, W8, a mixed value and -1. -/
theorem test_sext_values :
    [0x7FFFFF#24, 0x400000#24, 0x800000#24, 0x800001#24, 0xABCDEF#24, 0xFFFFFF#24].map
        (fun a => execTo .sext (extending a) fun t => (t.val, t.val.toInt)) =
      [some (0x007FFFFF#32, 8388607), some (0x00400000#32, 4194304), some (0xFF800000#32, -8388608),
        some (0xFF800001#32, -8388607), some (0xFFABCDEF#32, -5517841), some (0xFFFFFFFF#32, -1)] := by decide
/-- 42 R137: SEXT emits nothing. -/
theorem test_sext_phase : execTo .sext (extending 1#24) (fun t => (t.phase, t.acc, t.trace)) =
    some (0xF#4, 1#24, [.reset]) := by decide
/-- T7 row 1. -/
theorem test_complete_clean :
    execTo .complete (completing 0xFF800001#32 0x800001#24 0#5 0#1) (fun t => (t.phase, Safety.results t)) =
      some (0x0#4, (0b10#2, 0xFF800001#32, 0#1, 0#5, 0#1)) := by decide
/-- T7 row 4. -/
theorem test_complete_noisy :
    execTo .complete (completing 0#32 0#24 1#5 1#1) (fun t => (Safety.results t, t.trace)) =
      some ((0b10#2, 0#32, 1#1, 1#5, 1#1), [.reset, .result 0b10#2 0#32 1#1 1#5 1#1]) := by decide
/-- T8 row 2. -/
theorem test_reset_in_a_window :
    stepTo { settling 1#2 with i := 1#5, acc := 0x800000#24, inp := { resetting with cfgGain := 1#2 } }
      (fun t => (t.phase, t.gain, t.clk, t.cs, t.acc, t.trace)) =
      some (0x0#4, 1#2, 0#1, 0#1, 0#24, [.reset, .clkSet 0#1, .csSet 0#1, .reset]) := rfl
/-- T8 row 3, and T5 row 5. -/
theorem test_reset_after_csOff :
    stepTo { lastLow with inp := { resetting with cmdValid := 1#1 } } (fun t => (t.phase, t.gain, t.trace, t.resStatus)) =
      some (0x0#4, 3#2, [.reset, .reset], 0b00#2) := by decide
/-- 30 R75, I8: an instance with gain 0b00 gets no step. -/
theorem test_gain_zero_refused : step { resting with gain := 0#2 } = .refused .invalidGain := rfl
/-- I12: a reader that sees 0b11 stops. -/
theorem test_broken_status : State.readResults { resting with resStatus := 0b11#2 } = .fault .brokenStatus := rfl
/-- 10 R37 in reset and out of it. -/
theorem test_ready_and_busy :
    resting.outputs.cmdReady = 1#1 ∧ resting.outputs.busy = 0#1 ∧ rising.outputs.cmdReady = 0#1 ∧
    rising.outputs.busy = 1#1 ∧ (State.outputs { resting with inp := resetting }).cmdReady = 0#1 := by decide
/-- 30 R89: a READ line is over in the step that accepts it; POLL waits for `busy = 0`. -/
theorem test_host_lines :
    (match HostRun.next ⟨[.read, .poll], [], resting⟩ with
      | .next h => (h.lines, h.block.phase)
      | _ => ([], 0#4)) = ([.poll], 0x1#4) ∧
    HostLine.passed .poll rising = false ∧ HostLine.passed .poll resting = true := by decide
/-- 30 R89: `unanimous(0x800001)` is 1 in windows 0 and 23 only. -/
theorem test_unanimous :
    (unanimousWindows 0x800001#24)[0]? = some (1#1, 1#1, 1#1) ∧ (unanimousWindows 0x800001#24)[1]? = some (0#1, 0#1, 0#1) ∧
    (unanimousWindows 0x800001#24)[23]? = some (1#1, 1#1, 1#1) ∧ (unanimousWindows 0x800001#24).length = 24 := by decide

/-! ## Witnesses: what meets the hypotheses of the obligations, clause by clause, at the boundary values

The invariant is evaluated for one state of every phase. A step's hypothesis is met by `⟨_, rfl⟩`. -/

/-- `Safety.Inv`, evaluated. -/
def invHolds (s : State) : Bool :=
  decide (Safety.IdleLinesLow s) && decide (Safety.CriticalSectionSpan s) && decide (Safety.ClockHighPhases s) &&
  decide (Safety.UnvotedBitsClear s) && decide (Safety.NoisyCountBound s) && decide (Safety.SampleIndexRange s) &&
  decide (Safety.PulseCountRange s) && decide (Safety.ReadProgress s) && decide (Safety.ResultsConsistent s)

/-- The evaluation is sound. -/
theorem inv_of {s : State} (h : invHolds s = true) : Safety.Inv s := by
  simp only [invHolds, Bool.and_eq_true, decide_eq_true_eq] at h
  obtain ⟨⟨⟨⟨⟨⟨⟨⟨a, b⟩, c⟩, d⟩, e⟩, f⟩, g⟩, r⟩, q⟩ := h
  exact ⟨⟨a, b, c, d, e, f, g⟩, r, q⟩
/-- A step answers a next state. -/
abbrev Steps (s : State) : Prop := ∃ t, step s = .next t

/-- EveryCommandWordIsACommand: a command offered in IDLE, and none offered. -/
theorem witness_EveryCommandWordIsACommand :
    (State.phase { resting with inp := offering 1#1 } = 0x0#4 ∧
      (State.inp { resting with inp := offering 1#1 }).cmdValid = 1#1) ∧ resting.inp.cmdValid = 0#1 := by decide
/-- EveryPhaseCodeIsAMicroOperation: two codes that decode alike. -/
theorem witness_EveryPhaseCodeIsAMicroOperation : decode (.phase 0xF#4) = decode (.phase 15#4) := rfl
/-- OnlyTheTwoFixedWidthsDecode and DecodeAndEncodeAgreeExactly: the largest words that decode, and the first that do not. -/
theorem witness_OnlyTheTwoFixedWidthsDecode :
    decodeRaw ⟨1, 1⟩ = .ok .setup ∧ decodeRaw ⟨4, 15⟩ = .ok .complete ∧ decodeRaw ⟨1, 2⟩ = .error (.valueTooWide 1 2) ∧
    decodeRaw ⟨4, 16⟩ = .error (.valueTooWide 4 16) ∧ decodeRaw ⟨0, 0⟩ = .error (.noFormatOfWidth 0) :=
  ⟨rfl, rfl, rfl, rfl, rfl⟩
/-- ReadAndSetupAreAcceptedWhenReady. -/
theorem witness_ReadAndSetupAreAcceptedWhenReady : resting.phase = 0x0#4 ∧ resting.inp.rst = 0#1 := by decide
/-- AnUnacceptedCommandOnlyStaysOnOffer: busy, and in reset. -/
theorem witness_AnUnacceptedCommandOnlyStaysOnOffer :
    checking.phase ≠ 0x0#4 ∧ (State.inp { resting with inp := resetting }).rst = 1#1 := by decide
/-- IdleAcceptsOrStutters and IdleAcceptanceIsTheOfferedCommand: each value of `cmd_valid`, in IDLE, out of reset. -/
theorem witness_IdleAcceptsOrStutters :
    (State.inp { resting with inp := offering 0#1 }).cmdValid = 1#1 ∧ (offering 0#1).rst = 0#1 ∧ resting.inp.cmdValid = 0#1 ∧
    resting.phase = 0x0#4 ∧ Safety.Inv resting := by
  repeat' first | exact inv_of (by decide) | apply And.intro
  all_goals decide
/-- CheckReadsReadinessOnce: both levels of DATA. -/
theorem witness_CheckReadsReadinessOnce :
    (State.inp { checking with inp := dataHigh }).dataIn = 1#1 ∧ checking.inp.dataIn = 0#1 ∧
    Safety.Inv checking ∧ checking.phase = 0x1#4 := by
  repeat' first | exact inv_of (by decide) | apply And.intro
  all_goals decide
/-- CsOnEntersTheCriticalSection. -/
theorem witness_CsOnEntersTheCriticalSection : Safety.Inv entering ∧ entering.phase = 0x2#4 := by
  repeat' first | exact inv_of (by decide) | apply And.intro
  all_goals decide
/-- RiseStartsABitWindow, at window 0 and at window 23. -/
theorem witness_RiseStartsABitWindow :
    Safety.Inv rising ∧ rising.phase = 0x3#4 ∧ Safety.Inv { rising with i := 23#5 } := by
  repeat' first | exact inv_of (by decide) | apply And.intro
  all_goals decide
/-- WaitSOnlyWaits, at J = 1 and J = 3. -/
theorem witness_WaitSOnlyWaits :
    Safety.Inv (settling 1#2) ∧ Safety.Inv (settling 3#2) ∧ (settling 3#2).phase = 0x4#4 := by
  repeat' first | exact inv_of (by decide) | apply And.intro
  all_goals decide
/-- SampleStoresTheLevelOfData: J = 1, 2 and 3. -/
theorem witness_SampleStoresTheLevelOfData :
    1 ≤ (sampling 1#2).j.toNat ∧ (sampling 1#2).j.toNat < 3 ∧ (sampling 2#2).j.toNat < 3 ∧ (sampling 3#2).j = 3#2 ∧
    Safety.Inv (sampling 1#2) ∧ Safety.Inv (sampling 3#2) ∧ (sampling 1#2).phase = 0x5#4 := by
  repeat' first | exact inv_of (by decide) | apply And.intro
  all_goals decide
/-- VoteWritesTheWindowsBit, at windows 0 and 23, the latter with every earlier window noisy. -/
theorem witness_VoteWritesTheWindowsBit :
    (voting 0#5 0#24 0#5 1#1 0#1 1#1).i.toNat ≤ 23 ∧ (voting 23#5 0#24 0#5 1#1 0#1 1#1).i.toNat ≤ 23 ∧
    Safety.Inv (voting 0#5 0#24 0#5 1#1 0#1 1#1) ∧ Safety.Inv (voting 23#5 0xFFFFFE#24 23#5 1#1 0#1 1#1) ∧
    (voting 0#5 0#24 0#5 1#1 0#1 1#1).phase = 0x6#4 := by
  repeat' first | exact inv_of (by decide) | apply And.intro
  all_goals decide
/-- VoteBeyondTheLastWindowOnlyLeavesAccFree, at 24 and 31. -/
theorem witness_VoteBeyondTheLastWindowOnlyLeavesAccFree :
    24 ≤ (voting 24#5 0#24 0#5 0#1 0#1 0#1).i.toNat ∧ 24 ≤ (voting 31#5 0#24 0#5 0#1 0#1 0#1).i.toNat := by decide
/-- FallEndsTheHighTime. -/
theorem witness_FallEndsTheHighTime : Safety.Inv falling ∧ falling.phase = 0x7#4 := by
  repeat' first | exact inv_of (by decide) | apply And.intro
  all_goals decide
/-- WaitLGoesToTheNextWindowOrTheGainPulses: I = 0 and 22, and 23. -/
theorem witness_WaitLGoesToTheNextWindowOrTheGainPulses :
    (lowIn 0#5).i.toNat < 23 ∧ (lowIn 22#5).i.toNat < 23 ∧ 23 ≤ (lowIn 23#5).i.toNat ∧ Safety.Inv (lowIn 23#5) := by
  repeat' first | exact inv_of (by decide) | apply And.intro
  all_goals decide
/-- GRiseStartsAGainPulse: in G_RISE, and a step into it from each side. -/
theorem witness_GRiseStartsAGainPulse :
    (Safety.Inv (pulseRising 0#2) ∧ Safety.Inv (pulseRising 1#2) ∧ (pulseRising 0#2).phase = 0x9#4) ∧
    (Safety.Inv (lowIn 23#5) ∧ stepTo (lowIn 23#5) State.phase = some 0x9#4) ∧
    (Safety.Inv pulseLow ∧ stepTo pulseLow State.phase = some 0x9#4) := by
  repeat' first | exact inv_of (by decide) | apply And.intro
  all_goals decide
/-- GWaitHKeepsTheClockHigh. -/
theorem witness_GWaitHKeepsTheClockHigh : Safety.Inv pulseHigh ∧ pulseHigh.phase = 0xA#4 := by
  repeat' first | exact inv_of (by decide) | apply And.intro
  all_goals decide
/-- GFallCountsThePulse, at the first and at the last pulse. -/
theorem witness_GFallCountsThePulse :
    Safety.Inv (pulseFalling 0#2) ∧ Safety.Inv (pulseFalling 1#2) ∧ (pulseFalling 1#2).phase = 0xB#4 := by
  repeat' first | exact inv_of (by decide) | apply And.intro
  all_goals decide
/-- CsOffLeavesTheCriticalSection: in CS_OFF, and a step into it. -/
theorem witness_CsOffLeavesTheCriticalSection :
    Safety.Inv leaving ∧ leaving.phase = 0xC#4 ∧ stepTo (pulseFalling 1#2) State.phase = some 0xC#4 := by
  repeat' first | exact inv_of (by decide) | apply And.intro
  all_goals decide
/-- GWaitLGoesToTheNextPulseOrToSext: one pulse left, and none. -/
theorem witness_GWaitLGoesToTheNextPulseOrToSext :
    pulseLow.g.toNat < pulseLow.gain.toNat ∧ lastLow.gain.toNat ≤ lastLow.g.toNat ∧
    Safety.Inv pulseLow ∧ Safety.Inv lastLow ∧ lastLow.phase = 0xD#4 := by
  repeat' first | exact inv_of (by decide) | apply And.intro
  all_goals decide
/-- SextWidensTheAccumulator. -/
theorem witness_SextWidensTheAccumulator :
    Safety.Inv (extending 0x800001#24) ∧ (extending 0x800001#24).phase = 0xE#4 := by
  repeat' first | exact inv_of (by decide) | apply And.intro
  all_goals decide
/-- CompleteWritesTheSampleResult, ResultsChangeOnlyWhenAReadEnds and BusyFallsWithTheResults: COMPLETE, out of reset. -/
theorem witness_CompleteWritesTheSampleResult :
    Safety.Inv (completing 0xFF800001#32 0x800001#24 24#5 0#1) ∧
    (completing 0xFF800001#32 0x800001#24 24#5 0#1).phase = 0xF#4 ∧
    (completing 0xFF800001#32 0x800001#24 24#5 0#1).inp.rst = 0#1 ∧
    (completing 0xFF800001#32 0x800001#24 24#5 0#1).busy = true ∧
    stepTo (completing 0xFF800001#32 0x800001#24 24#5 0#1) State.busy = some false := by
  repeat' first | exact inv_of (by decide) | apply And.intro
  all_goals decide
/-- ResultsChangeOnlyWhenAReadEnds, on the NotReady path and where nothing is written. -/
theorem witness_ResultsChangeOnlyWhenAReadEnds :
    (Steps { checking with inp := dataHigh } ∧ (State.inp { checking with inp := dataHigh }).rst = 0#1 ∧
      (State.inp { checking with inp := dataHigh }).dataIn = 1#1 ∧ Safety.Inv { checking with inp := dataHigh } ∧
      stepTo { checking with inp := dataHigh } State.busy = some false) ∧
    (Steps checking ∧ checking.inp.dataIn = 0#1 ∧ checking.phase ≠ 0xF#4) ∧ Steps rising := by
  repeat' first | exact inv_of (by decide) | exact ⟨_, rfl⟩ | apply And.intro
  all_goals decide
/-- ResetStepWritesEveryElement: reset in a window, with a command on offer. -/
theorem witness_ResetStepWritesEveryElement :
    (State.inp { sampling 2#2 with inp := { resetting with cmdValid := 1#1 } }).rst = 1#1 := by decide
/-- LaunchStateHoldsTheResetValues: input ports with each level of `rst`. -/
theorem witness_LaunchStateHoldsTheResetValues : quiet.rst = 0#1 ∧ resetting.rst = 1#1 := by decide
/-- AnInvalidGainGetsNoSteps: out of reset with gain 0, and a reset step that latches it. -/
theorem witness_AnInvalidGainGetsNoSteps :
    gainWellFormed 0#2 = false ∧
    (State.inp { resting with gain := 0#2 }).rst = 0#1 ∧ State.gain { resting with gain := 0#2 } = 0#2 ∧
    (State.inp { resting with inp := { resetting with cfgGain := 0#2 } }).rst = 1#1 ∧
    (State.inp { resting with inp := { resetting with cfgGain := 0#2 } }).cfgGain = 0#2 := by decide
/-- EveryAdmittedStateHasAStep and StepRunsTheFetchedInstruction: the smallest and the largest gain, out of reset. -/
theorem witness_StepRunsTheFetchedInstruction :
    gainWellFormed (State.gain { resting with gain := 1#2 }) = true ∧
    gainWellFormed (State.gain { resting with gain := 3#2 }) = true ∧ resting.inp.rst = 0#1 := by decide
/-- CommandsWaitUntilTheBlockIsReady: accepted, waiting while busy, waiting in reset, and nothing offered. -/
theorem witness_CommandsWaitUntilTheBlockIsReady :
    (Steps { resting with inp := offering 1#1 } ∧ (offering 1#1).cmdValid = 1#1 ∧ (offering 1#1).rst = 0#1) ∧
    (Steps { lowIn 23#5 with inp := offering 1#1 } ∧ (lowIn 23#5).phase ≠ 0x0#4) ∧
    Steps { resting with inp := { resetting with cmdValid := 1#1 } } ∧ Steps resting :=
  ⟨⟨⟨_, rfl⟩, by decide⟩, ⟨⟨_, rfl⟩, by decide⟩, ⟨_, rfl⟩, ⟨_, rfl⟩⟩
/-- SimultaneousEventsResolve: reset with a command on offer, an offer while busy, a NotReady result. -/
theorem witness_SimultaneousEventsResolve :
    (Steps { resting with inp := { resetting with cmdValid := 1#1 } } ∧ resetting.rst = 1#1) ∧
    (Steps { lowIn 0#5 with inp := offering 0#1 } ∧ State.busy { lowIn 0#5 with inp := offering 0#1 } = true) ∧
    (Safety.Inv { resting with resStatus := 0b01#2 } ∧ State.resStatus { resting with resStatus := 0b01#2 } = 0b01#2) := by
  repeat' first | exact inv_of (by decide) | exact ⟨_, rfl⟩ | apply And.intro
  all_goals decide
/-- ABusReadStopsOnTheBrokenStatus: 0b11, and the other three codes. -/
theorem witness_ABusReadStopsOnTheBrokenStatus :
    State.resStatus { resting with resStatus := 0b11#2 } = 0b11#2 ∧ State.resStatus { resting with resStatus := 0b10#2 } ≠ 0b11#2 ∧
    State.resStatus { resting with resStatus := 0b01#2 } ≠ 0b11#2 ∧ resting.resStatus ≠ 0b11#2 := by decide
/-- InvariantHoldsAtLaunch: the launch state at another gain, with other parameters. -/
theorem witness_InvariantHoldsAtLaunch :
    Safety.Launch { State.reset with gain := 3#2, params := ⟨2, 5, 1⟩, inp := offering 1#1 } := by decide
/-- EveryStepKeepsTheInvariant, NoStepWritesTheUnusedStatus, TheTraceOnlyGrows, GainIsHeldUntilTheNextReset,
OnlyFourPhasesAndResetDriveTheClock: a step out of reset and a reset step, from states of the invariant. -/
theorem witness_EveryStepKeepsTheInvariant :
    (Steps (sampling 3#2) ∧ Safety.Inv (sampling 3#2) ∧ (sampling 3#2).inp.rst = 0#1 ∧ (sampling 3#2).resStatus ≠ 0b11#2) ∧
    (Steps { sampling 3#2 with inp := resetting } ∧ Safety.Inv { sampling 3#2 with inp := resetting } ∧ resetting.rst = 1#1) := by
  repeat' first | exact inv_of (by decide) | exact ⟨_, rfl⟩ | apply And.intro
  all_goals decide
/-- OnlyFourPhasesAndResetDriveTheClock and EveryClockEventIsATransition: the clock changes up, down, and in reset; IDLE. -/
theorem witness_EveryClockEventIsATransition :
    (Safety.Inv rising ∧ rising.clk = 0#1 ∧ stepTo rising State.clk = some 1#1) ∧
    (Safety.Inv (pulseFalling 1#2) ∧ (pulseFalling 1#2).clk = 1#1 ∧ stepTo (pulseFalling 1#2) State.clk = some 0#1) ∧
    (Safety.Inv { falling with inp := resetting } ∧ stepTo { falling with inp := resetting } State.clk = some 0#1) ∧
    (Safety.Inv resting ∧ resting.phase = 0x0#4) := by
  repeat' first | exact inv_of (by decide) | apply And.intro
  all_goals decide
/-- OnlyCsOnCsOffAndResetWriteCs: CS set, cleared, and cleared by reset. -/
theorem witness_OnlyCsOnCsOffAndResetWriteCs :
    (entering.cs = 0#1 ∧ stepTo entering (fun t => (t.cs, t.trace)) = some (1#1, [.reset, .csSet 1#1])) ∧
    (leaving.cs = 1#1 ∧ stepTo leaving (fun t => (t.cs, t.trace)) = some (0#1, [.reset, .csSet 0#1])) ∧
    stepTo { rising with inp := resetting } (fun t => (t.cs, t.trace)) = some (0#1, [.reset, .csSet 0#1, .reset]) := by decide
/-- OnlyAcceptanceVoteAndResetWriteTheAccumulator: acceptance, a vote of windows 0 and 23, and a step that is neither. -/
theorem witness_OnlyAcceptanceVoteAndResetWriteTheAccumulator :
    (Safety.Inv { resting with inp := offering 0#1 } ∧ Steps { resting with inp := offering 0#1 }) ∧
    (Safety.Inv (voting 0#5 0#24 0#5 1#1 1#1 0#1) ∧ Steps (voting 0#5 0#24 0#5 1#1 1#1 0#1)) ∧
    (Safety.Inv (voting 23#5 0#24 0#5 1#1 1#1 0#1) ∧ Steps (voting 23#5 0#24 0#5 1#1 1#1 0#1)) ∧
    (Safety.Inv resting ∧ Steps resting ∧ resting.inp.cmdValid = 0#1) := by
  repeat' first | exact inv_of (by decide) | exact ⟨_, rfl⟩ | apply And.intro
  all_goals decide
/-- DataIsReadOnlyInCheckAndSample: phases on both sides of CHECK and of SAMPLE. -/
theorem witness_DataIsReadOnlyInCheckAndSample :
    (resting.phase ≠ 0x1#4 ∧ resting.phase ≠ 0x5#4) ∧ ((settling 1#2).phase ≠ 0x1#4 ∧ (settling 1#2).phase ≠ 0x5#4) ∧
    ((voting 0#5 0#24 0#5 0#1 0#1 0#1).phase ≠ 0x1#4 ∧ (voting 0#5 0#24 0#5 0#1 0#1 0#1).phase ≠ 0x5#4) := by decide
/-- ReadAndSetupDifferOnlyInTheDiscardBit: a READ and a SETUP on offer, each in a block at rest. -/
theorem witness_ReadAndSetupDifferOnlyInTheDiscardBit :
    Safety.sameButDiscard { resting with inp := offering 0#1 } { resting with inp := offering 1#1 } ∧
    Steps { resting with inp := offering 0#1 } :=
  ⟨⟨rfl, rfl⟩, _, rfl⟩
/-- NoHiddenStateBetweenReads, first clause: a fresh block and one with work registers left over. -/
theorem witness_NoHiddenStateBetweenReads_accept :
    (∃ s t : State, s ≠ t ∧ s.phase = 0x0#4 ∧ t.phase = 0x0#4 ∧ s.clk = t.clk ∧ s.cs = t.cs ∧ s.params = t.params ∧
      s.gain = t.gain ∧ s.inp = t.inp ∧ s.script = t.script ∧ s.tick = t.tick ∧ s.inp.rst = 0#1 ∧ s.inp.cmdValid = 1#1 ∧
      Steps s) :=
  ⟨{ resting with inp := offering 0#1 },
    { resting with inp := offering 0#1, acc := 0xFFFFFF#24, ncnt := 24#5, i := 23#5, g := 2#2, val := 0xFFFFFFFF#32 },
    by decide, rfl, rfl, rfl, rfl, rfl, rfl, rfl, rfl, rfl, rfl, rfl, ⟨_, rfl⟩⟩
/-- NoHiddenStateBetweenReads, second clause: two reads in COMPLETE with different results of the read before. -/
theorem witness_NoHiddenStateBetweenReads_sameRead :
    Safety.sameRead (completing 7#32 7#24 0#5 0#1) { completing 7#32 7#24 0#5 0#1 with resStatus := 0b01#2, trace := [] } ∧
    Steps (completing 7#32 7#24 0#5 0#1) ∧ (completing 7#32 7#24 0#5 0#1).phase ≠ 0x0#4 ∧
    stepTo (completing 7#32 7#24 0#5 0#1) State.phase = some 0x0#4 :=
  ⟨rfl, ⟨_, rfl⟩, by decide, by decide⟩
/-- EveryStepOfAReadBringsItsEndNearer and ClockTransitionsOfAReadAddUp: CHECK with DATA low, and the last phases. -/
theorem witness_EveryStepOfAReadBringsItsEndNearer :
    (Safety.Inv checking ∧ Steps checking ∧ checking.inp.rst = 0#1 ∧ checking.busy = true ∧ checking.inp.dataIn = 0#1) ∧
    (Safety.Inv lastLow ∧ Steps lastLow ∧ lastLow.inp.rst = 0#1 ∧ lastLow.busy = true ∧ lastLow.phase ≠ 0x1#4) := by
  repeat' first | exact inv_of (by decide) | exact ⟨_, rfl⟩ | apply And.intro
  all_goals decide
/-- ReadsTakeAFixedNumberOfSteps, ANotReadyReadTouchesNoLine and AFullReadMakes48Plus2GainTransitions, the NotReady
clause: DATA high in the step after acceptance. -/
theorem witness_ANotReadyReadTouchesNoLine :
    ∃ (s : State) (p : PortInputs) (rest : List PortInputs), s.phase = 0x0#4 ∧ gainWellFormed s.gain = true ∧
      s.inp.rst = 0#1 ∧ s.inp.cmdValid = 1#1 ∧ s.script = p :: rest ∧ p.rst = 0#1 ∧ p.dataIn = 1#1 :=
  ⟨{ State.reset with inp := offering 0#1, script := [dataHigh] }, dataHigh, [], rfl, rfl, rfl, rfl, rfl, rfl, rfl⟩
/-- The launch state with a command on offer and an environment that stays quiet for the whole read. -/
def launched (gain : BitVec 2) : State :=
  { State.reset with gain := gain, inp := offering 0#1, script := List.replicate (245 + 4 * gain.toNat) quiet }
/-- It meets the premises of a full read, at every valid gain. -/
theorem fullRead_of_launched (gain : BitVec 2) (h : gainWellFormed gain = true) :
    Safety.FullRead (launched gain) (List.replicate (245 + 4 * gain.toNat) quiet) where
  inv := inv_of (by revert gain; decide)
  idle := rfl
  gain := h
  rst := rfl
  offered := rfl
  script := ⟨[], by simp [launched]⟩
  long := by simp [launched]
  quiet := fun p hp => by rw [List.eq_of_mem_replicate hp]; rfl
  ready := by rw [Safety.levelAt, List.getElem?_replicate, if_pos (by omega)]; rfl
/-- ReadsTakeAFixedNumberOfSteps, AFullReadReturnsTheVotedWord, AFullReadEmitsTheEventsInOrder,
AFullReadMakes48Plus2GainTransitions and AFullReadWaitsItsNominalTime, the full-read clauses: the smallest gain. -/
theorem witness_FullRead_gain_one : Safety.FullRead (launched 1#2) (List.replicate 249 quiet) :=
  fullRead_of_launched 1#2 rfl
/-- The same, the largest gain. -/
theorem witness_FullRead_gain_three : Safety.FullRead (launched 3#2) (List.replicate 257 quiet) :=
  fullRead_of_launched 3#2 rfl

end Sys2Proof.Tests
end

section
/-! SUPPORT. Proofs about the registers of spec 10: which steps write the result registers (R36), CLK (R29) and ACC (R25).
A step that writes a register is computed from its way of `Took`; that every other step leaves the register is one frame
lemma over the ways of `Took`. -/

namespace Sys2Proof.Machine

/-- The block's action in a state is one: any way of `Took` gives the step's next state. -/
theorem eq_advance_of_took {s t b : State} (h : step s = .next t) (hb : Took s b) : t = b.advance s := by
  obtain ⟨_, _, _, hg⟩ := took_of_step h
  rw [step_eq_of_took hg hb] at h
  injection h with h
  exact h.symm

/-! ## The result registers -/

/-- The environment's move leaves the five result registers. -/
@[simp] theorem State.advance_results (b s : State) : Safety.results (b.advance s) = Safety.results b := rfl

/-- A result write sets all five registers together, `RES_DISCARD` from `DISC`. -/
@[simp] theorem State.writeResult_results (s : State) (status : BitVec 2) (value : BitVec 32) (noisy : BitVec 1)
    (ncnt : BitVec 5) :
    Safety.results (s.writeResult status value noisy ncnt) = (status, value, noisy, ncnt, s.disc) := rfl

/-- A phase write leaves the five result registers. -/
@[simp] theorem State.goto_results (s : State) (p : BitVec 4) : Safety.results (s.goto p) = Safety.results s := rfl

/-- Out of reset, only a NotReady CHECK and COMPLETE write the result registers. -/
theorem Took.results_frame {s b : State} (hb : Took s b) (hr : s.inp.rst = 0#1)
    (hcheck : ¬(s.phase = PhaseCode.check ∧ s.inp.dataIn = 1#1)) (hcomplete : s.phase ≠ PhaseCode.complete) :
    Safety.results b = Safety.results s := by
  cases hb with
  | reset h => simp [hr] at h
  | notReady _ p c => exact absurd ⟨p, c⟩ hcheck
  | complete _ p => exact absurd p hcomplete
  | _ => rfl

/-! ## CLK -/

/-- What can change CLK: a reset step, and the actions of the four phases that drive it. -/
theorem Took.clk_frame {s b : State} (hb : Took s b) :
    b.clk = s.clk ∨ s.inp.rst = 1#1 ∨ s.phase = PhaseCode.rise ∨ s.phase = PhaseCode.fall ∨
      s.phase = PhaseCode.gRise ∨ s.phase = PhaseCode.gFall := by
  cases hb with
  | reset h => exact .inr (.inl h)
  | rise _ p | fall _ p | gRise _ p | gFallMore _ p | gFallLast _ p => simp [p]
  | _ => exact .inl rfl

/-! ## ACC -/

/-- Out of reset, only acceptance and VOTE write ACC. -/
theorem Took.acc_frame {s b : State} (hb : Took s b) (hr : s.inp.rst = 0#1) (hvote : s.phase ≠ PhaseCode.vote)
    (haccept : ¬(s.phase = PhaseCode.idle ∧ s.inp.cmdValid = 1#1)) : b.acc = s.acc := by
  cases hb with
  | reset h => simp [hr] at h
  | accept _ p c => exact absurd ⟨p, c⟩ haccept
  | vote _ p => exact absurd p hvote
  | _ => rfl

/-- The majority vote's only bit says whether at least two samples are 1 (spec 41 R110). -/
theorem maj3_getLsbD_zero (a b c : BitVec 1) :
    (maj3 a b c).getLsbD 0 = decide (2 ≤ a.toNat + b.toNat + c.toNat) := by
  unfold maj3 sampleSum
  split <;> simp_all

/-- In VOTE the window exists and its accumulator bit is still 0 (spec 10 R21, R38 item 4). -/
theorem windowBit_clear_of_vote {s : State} (hi : Safety.Inv s) (hp : s.phase = PhaseCode.vote) :
    s.i.toNat ≤ 23 ∧ s.acc.getLsbD (23 - s.i.toNat) = false := by
  obtain ⟨⟨_, _, _, hclear, _⟩, ⟨hle, _⟩, _⟩ := hi
  exact ⟨hle, hclear (by simp [hp]) _ (by omega) le_rfl⟩

/-- Where the window's bit is still 0, ORing the vote into it sets it to the vote (spec 41 R114). -/
theorem setWindowBit_getLsbD_of_clear {acc : BitVec 24} {i : BitVec 5} (hi : i.toNat ≤ 23)
    (hc : acc.getLsbD (23 - i.toNat) = false) (m : BitVec 1) (k : Nat) :
    (setWindowBit acc i m).getLsbD k = if k = 23 - i.toNat then m.getLsbD 0 else acc.getLsbD k := by
  rw [setWindowBit_getLsbD hi]
  by_cases hk : k = 23 - i.toNat <;> simp [hk, hc]

end Sys2Proof.Machine

namespace Sys2Proof

open Sys2Proof.Machine

/-- Settles O42: the two writing steps are computed, every other step is the frame of the result registers. -/
theorem resultsChangeOnlyWhenAReadEnds : Obligations.ResultsChangeOnlyWhenAReadEnds := by
  intro s t h hr
  refine ⟨fun p c => ?_, fun p => ?_, fun hcheck hcomplete => ?_⟩
  · rw [eq_advance_of_took h (.notReady hr p c)]
    simp
  · rw [eq_advance_of_took h (.complete hr p)]
    simp [noisyFlag]
  · obtain ⟨b, hb, rfl, _⟩ := took_of_step h
    simpa using hb.results_frame hr hcheck hcomplete

/-- Settles O44: the frame of CLK, the reset step, and R38 item 1. -/
theorem onlyFourPhasesAndResetDriveTheClock : Obligations.OnlyFourPhasesAndResetDriveTheClock := by
  refine ⟨fun s t h hne => ?_, fun s t h hr => ?_, fun s hi hp => ?_⟩
  · obtain ⟨b, hb, rfl, _⟩ := took_of_step h
    exact hb.clk_frame.resolve_left hne
  · rw [eq_advance_of_took h (.reset hr)]
    rfl
  · obtain ⟨⟨hidle, _⟩, _⟩ := hi
    exact (hidle hp).1

/-- Settles O48: reset and acceptance clear ACC; the invariant says that VOTE's bit is 0 before it is ORed in; every other
step is the frame of ACC. -/
theorem onlyAcceptanceVoteAndResetWriteTheAccumulator :
    Obligations.OnlyAcceptanceVoteAndResetWriteTheAccumulator := by
  intro s t hi h
  refine ⟨fun hr => ?_, fun hr p c => ?_, fun hr p k _ => ?_, fun hr hvote haccept => ?_⟩
  · rw [eq_advance_of_took h (.reset hr)]
    rfl
  · rw [eq_advance_of_took h (.accept hr p c)]
    simp
  · rw [eq_advance_of_took h (.vote hr p)]
    obtain ⟨hle, hclear⟩ := windowBit_clear_of_vote hi p
    simp only [State.advance_acc]
    rw [setWindowBit_getLsbD_of_clear hle hclear, maj3_getLsbD_zero]
  · obtain ⟨b, hb, rfl, _⟩ := took_of_step h
    exact hb.acc_frame hr hvote haccept

end Sys2Proof
end

section
/-! SUPPORT. Proofs about the trace and the lines of spec 20: the events of a step beside the line it drives, CLK (R51) and
CS (R57). What a block action appends to the trace is read off its way of `Took`, once per line. -/

namespace Sys2Proof.Machine

/-! ## The events a step appends -/

/-- The events a step appended are read off its trace. -/
theorem newEvents_of_trace {s t : State} {es : List Event} (h : t.trace = s.trace ++ es) :
    Safety.newEvents s t = es := by
  rw [Safety.newEvents, h, List.drop_left]

/-- The environment's move appends no event. -/
@[simp] theorem newEvents_advance (s b : State) : Safety.newEvents s (b.advance s) = Safety.newEvents s b := rfl

/-! ## CLK -/

/-- The `ClkSet` events of a block action: none where CLK keeps its level, else the one of its new level. The phases that
drive CLK find it at the other level by R38 item 3; a reset step looks at CLK itself. -/
theorem Took.clkSets_newEvents {s b : State} (hb : Took s b) (hi : Safety.Inv s) :
    (Safety.newEvents s b).filter Safety.isClkSet = if b.clk = s.clk then [] else [.clkSet b.clk] := by
  obtain ⟨⟨_, _, hclk, _⟩, _⟩ := hi
  cases hb with
  | reset _ =>
    rw [newEvents_of_trace (State.resetStep_trace s)]
    rcases bit_cases s.clk with c | c <;> rcases bit_cases s.cs with d | d <;>
      simp [State.resetEvents, State.reset, List.filter_cons, Safety.isClkSet, c, d]
  | rise _ p | gRise _ p =>
    have c : s.clk = 0#1 := bit_eq_zero_of_ne_one (by simp [hclk, p])
    simp [Safety.newEvents, Safety.isClkSet, c]
  | fall _ p | gFallMore _ p | gFallLast _ p =>
    have c : s.clk = 1#1 := hclk.mpr (by simp [p])
    simp [Safety.newEvents, Safety.isClkSet, c]
  | _ => simp [Safety.newEvents, Safety.isClkSet]

/-- A block action emits `ClkSet(v)` exactly when it changes CLK to `v`. -/
theorem Took.clkSet_mem_newEvents_iff {s b : State} (hb : Took s b) (hi : Safety.Inv s) (v : BitVec 1) :
    .clkSet v ∈ Safety.newEvents s b ↔ b.clk ≠ s.clk ∧ v = b.clk := by
  calc .clkSet v ∈ Safety.newEvents s b
      ↔ .clkSet v ∈ (Safety.newEvents s b).filter Safety.isClkSet := by simp [Safety.isClkSet]
    _ ↔ b.clk ≠ s.clk ∧ v = b.clk := by
      rw [hb.clkSets_newEvents hi]
      split <;> simp [*]

/-- A block action emits at most one `ClkSet`. -/
theorem Took.clkSets_newEvents_le_one {s b : State} (hb : Took s b) (hi : Safety.Inv s) :
    Safety.clkSets (Safety.newEvents s b) ≤ 1 := by
  rw [Safety.clkSets, List.countP_eq_length_filter, hb.clkSets_newEvents hi]
  split <;> simp

/-! ## CS -/

/-- A `CsSet` event names the level CS then has, and is reset's, CS_ON's or CS_OFF's. -/
theorem Took.of_csSet_mem_newEvents {s b : State} (hb : Took s b) {v : BitVec 1}
    (hv : .csSet v ∈ Safety.newEvents s b) :
    b.cs = v ∧ ((s.inp.rst = 1#1 ∧ v = 0#1) ∨ (s.inp.rst = 0#1 ∧ s.phase = PhaseCode.csOn ∧ v = 1#1) ∨
      (s.inp.rst = 0#1 ∧ s.phase = PhaseCode.csOff ∧ v = 0#1)) := by
  cases hb with
  | reset h =>
    rw [newEvents_of_trace (State.resetStep_trace s)] at hv
    obtain ⟨_, rfl⟩ : s.cs = 1#1 ∧ v = 0#1 := by simpa [State.resetEvents] using hv
    exact ⟨rfl, .inl ⟨h, rfl⟩⟩
  | csOn h p =>
    obtain rfl : v = 1#1 := by simpa [Safety.newEvents] using hv
    exact ⟨rfl, .inr (.inl ⟨h, p, rfl⟩)⟩
  | csOff h p =>
    obtain rfl : v = 0#1 := by simpa [Safety.newEvents] using hv
    exact ⟨rfl, .inr (.inr ⟨h, p, rfl⟩)⟩
  | _ => simp [Safety.newEvents] at hv

/-- A block action that changes CS emits the `CsSet` of its new level. -/
theorem Took.csSet_mem_newEvents_of_ne {s b : State} (hb : Took s b) (hne : b.cs ≠ s.cs) :
    .csSet b.cs ∈ Safety.newEvents s b := by
  cases hb with
  | reset _ =>
    have c : s.cs = 1#1 := (bit_cases s.cs).resolve_left hne.symm
    rw [newEvents_of_trace (State.resetStep_trace s)]
    simp [State.resetEvents, State.reset, c]
  | csOn | csOff => simp [Safety.newEvents]
  | _ => exact absurd rfl hne

end Sys2Proof.Machine

namespace Sys2Proof

open Sys2Proof.Machine

/-- Settles O45: the `ClkSet` events of a step are those of its block action. -/
theorem everyClockEventIsATransition : Obligations.EveryClockEventIsATransition := by
  intro s t hi h
  obtain ⟨b, hb, rfl, _⟩ := took_of_step h
  refine ⟨fun v hv => ?_, hb.clkSets_newEvents_le_one hi, fun hne => ?_⟩
  · obtain ⟨hne, rfl⟩ := (hb.clkSet_mem_newEvents_iff hi v).mp hv
    exact ⟨hne.symm, rfl⟩
  · exact (hb.clkSet_mem_newEvents_iff hi b.clk).mpr ⟨hne, rfl⟩

/-- Settles O46: which block actions write CS, and that each emits its event. -/
theorem onlyCsOnCsOffAndResetWriteCs : Obligations.OnlyCsOnCsOffAndResetWriteCs := by
  intro s t h
  obtain ⟨b, hb, rfl, _⟩ := took_of_step h
  exact ⟨hb.csSet_mem_newEvents_of_ne, fun v hv => hb.of_csSet_mem_newEvents hv⟩

end Sys2Proof
end

section
/-! SUPPORT. The whole of a full read (spec 20 R64): its start, its windows, its gain pulses and its end, put together once
for every statement about full reads. -/

namespace Sys2Proof.Machine

/-- What the accepting step, a CHECK that reads 0 and CS_ON leave (spec 40 R91, 41 R101, R102). -/
def afterStart (u : State) (ps : List PortInputs) : State :=
  { u.accept with
    cs := 1#1, phase := PhaseCode.rise, script := ps
    trace := u.trace ++ [.accept u.inp.cmdDiscard, .ready 0#1, .csSet 1#1] }

/-- The three steps before the first window. CHECK reads the level driven after the accepting step. -/
theorem readStart_run {u : State} (hr : u.inp.rst = 0#1) (hg : u.gain ≠ 0#2) (hp : u.phase = PhaseCode.idle)
    (hc : u.inp.cmdValid = 1#1) {p0 p1 p2 : PortInputs} {ps} (hs : u.script = p0 :: p1 :: p2 :: ps)
    (hq : ∀ p ∈ [p0, p1, p2], p.rst = 0#1) (hd : p0.dataIn = 0#1) :
    Runs 3 u (afterStart u ps) := by
  simp only [List.mem_cons, List.not_mem_nil, or_false, forall_eq_or_imp, forall_eq] at hq
  obtain ⟨h0, h1, h2⟩ := hq
  obtain ⟨q, hqr, hqd, e⟩ := Runs.one' hs hg (.accept hr hp hc)
  obtain ⟨q1, hq1, _, e1⟩ := Runs.one' (u := { u.accept with inp := q, script := p1 :: p2 :: ps }) rfl hg
    (.ready (hqr.trans h0) rfl (hqd.trans hd))
  obtain ⟨q2, hq2, _, e2⟩ := Runs.one' (u := { (u.accept.emit (.ready 0#1)).goto PhaseCode.csOn with
    inp := q1, script := p2 :: ps }) rfl hg (.csOn (hq1.trans h1) rfl)
  refine ⟨q2, hq2.trans h2, (run_succ e).trans ((run_succ e1).trans ((run_succ e2).trans ?_))⟩
  simp [Safety.run, afterStart, State.emit, State.setCs, State.goto]

/-- SEXT and COMPLETE (spec 42 R137, R138); the environment's move after COMPLETE is left open. -/
theorem readEnd_run {u : State} (hr : u.inp.rst = 0#1) (hg : u.gain ≠ 0#2) (hp : u.phase = PhaseCode.sext)
    {p : PortInputs} {ps} (hs : u.script = p :: ps) (hq : p.rst = 0#1) :
    ∃ t, Safety.run 2 u = .next t ∧ t.phase = PhaseCode.idle ∧ t.acc = u.acc ∧ t.ncnt = u.ncnt ∧
      Safety.results t = (StatusCode.sample, sext32 u.acc, noisyFlag u.ncnt, u.ncnt, u.disc) ∧
      t.trace = u.trace ++ [.result t.resStatus t.resValue t.resNoisy t.resNcnt t.resDiscard] := by
  obtain ⟨q, hqr, _, e⟩ := Runs.one' hs hg (.sext hr hp)
  have e' := step_eq_of_took (s := { u with val := sext32 u.acc, phase := PhaseCode.complete, inp := q, script := ps })
    (fun _ => hg) (.complete (hqr.trans hq) rfl)
  exact ⟨_, (run_succ e).trans (run_succ e'), rfl, rfl, rfl, rfl, rfl⟩

/-- The levels of a full read, cut by the steps after which they are driven: acceptance, CHECK and CS_ON one each, the
windows 240, the gain pulses with CS_OFF `n + 1`, and SEXT the last. -/
theorem levels_split {ps : List PortInputs} {n : Nat} (h : ps.length = n + 245) :
    ∃ p0 p1 p2 W P z, ps = p0 :: p1 :: p2 :: (W ++ (P ++ [z])) ∧ W.length = 240 ∧ P.length = n + 1 := by
  match ps, h with
  | p0 :: p1 :: p2 :: l, h =>
    have hl : l.length = 240 + (n + 1) + 1 := by simp at h; omega
    obtain ⟨z, hz⟩ := List.length_eq_one_iff.mp (show (l.drop (240 + (n + 1))).length = 1 by simp [hl])
    exact ⟨p0, p1, p2, l.take 240, (l.drop 240).take (n + 1), z,
      by rw [← hz, List.drop_take_append_drop, List.take_append_drop], by simp; omega, by simp; omega⟩

/-- A window's samples are among the 240 levels driven after the windows' steps. -/
theorem samplesOf_cons {p0 p1 p2 : PortInputs} {W X : List PortInputs} {w : Nat} (hW : W.length = 240)
    (hw : w < 24) :
    Safety.samplesOf (p0 :: p1 :: p2 :: (W ++ X)) w =
      (Safety.levelAt W (10 * w + 1), Safety.levelAt W (10 * w + 3), Safety.levelAt W (10 * w + 5)) := by
  have h (k : Nat) (hk : k < 240) :
      Safety.levelAt (p0 :: p1 :: p2 :: (W ++ X)) (k + 3) = Safety.levelAt W k := by
    simp [Safety.levelAt, List.getElem?_append_left (hW ▸ hk)]
  rw [Safety.samplesOf, h (10 * w + 1) (by omega), h (10 * w + 3) (by omega), h (10 * w + 5) (by omega)]

/-- Where a read of `s` stands after its 24 windows, when window `w` had the samples `f w` (spec 41 R100). -/
structure WindowsDone (s : State) (f : Nat → BitVec 1 × BitVec 1 × BitVec 1) (v : State) : Prop where
  params : v.params = s.params
  gain : v.gain = s.gain
  disc : v.disc = s.inp.cmdDiscard
  noPulse : v.g = 0#2
  phase : v.phase = PhaseCode.gRise
  acc : ∀ w, w < 24 → v.acc.getLsbD (23 - w) = (maj3 (f w).1 (f w).2.1 (f w).2.2).getLsbD 0
  ncnt : v.ncnt.toNat = (List.range 24).countP fun w => noisy3 (f w).1 (f w).2.1 (f w).2.2 == 1#1
  trace : v.trace = s.trace ++ [.accept s.inp.cmdDiscard] ++ [.ready 0#1, .csSet 1#1] ++
    (List.range 24).flatMap fun w => Safety.windowEvents s.params w (f w)

/-- A read from its acceptance to the end of its last window. -/
theorem readWindows_run {u : State} (hr : u.inp.rst = 0#1) (hg : u.gain ≠ 0#2) (hp : u.phase = PhaseCode.idle)
    (hc : u.inp.cmdValid = 1#1) {p0 p1 p2 : PortInputs} {W ps} (hs : u.script = p0 :: p1 :: p2 :: (W ++ ps))
    (hq : ∀ p ∈ [p0, p1, p2], p.rst = 0#1) (hd : p0.dataIn = 0#1) (hW : W.length = 240)
    (hqW : ∀ p ∈ W, p.rst = 0#1) {f : Nat → BitVec 1 × BitVec 1 × BitVec 1}
    (hf : ∀ w, w < 24 →
      f w = (Safety.levelAt W (10 * w + 1), Safety.levelAt W (10 * w + 3), Safety.levelAt W (10 * w + 5))) :
    ∃ v, Runs 243 u v ∧ v.script = ps ∧ WindowsDone u f v := by
  obtain ⟨q, hq, e⟩ := readStart_run hr hg hp hc hs hq hd
  obtain ⟨v, ⟨q', hq', e'⟩, ⟨hparams, hgain, hdisc, -, hg⟩, hphase, hscript, hacc, hncnt, htrace⟩ :=
    windows_run 23 (u := { afterStart u (W ++ ps) with inp := q }) hq hg rfl rfl le_rfl
      (fun _ _ _ => BitVec.getLsbD_zero) rfl hW hqW f fun w hw => by simpa [afterStart] using hf w hw
  refine ⟨v, ⟨q', hq', (run_add 3 240 _ _ e).trans e'⟩, hscript, hparams, hgain, hdisc, hg, hphase, hacc, ?_, ?_⟩
  · simpa [afterStart, List.range_eq_range'] using hncnt
  · simpa [afterStart, List.range_eq_range'] using htrace

/-- How a full read of `s` with the levels `ps` ends: the voted word, the noisy windows counted, the results made of them,
and the events of spec 20 R64 in order. -/
structure FullReadEnd (s : State) (ps : List PortInputs) (t : State) : Prop where
  phase : t.phase = PhaseCode.idle
  acc : ∀ w, w < 24 → t.acc.getLsbD (23 - w) =
    (maj3 (Safety.samplesOf ps w).1 (Safety.samplesOf ps w).2.1 (Safety.samplesOf ps w).2.2).getLsbD 0
  ncnt : t.ncnt.toNat = (List.range 24).countP fun w =>
    noisy3 (Safety.samplesOf ps w).1 (Safety.samplesOf ps w).2.1 (Safety.samplesOf ps w).2.2 == 1#1
  results : Safety.results t = (StatusCode.sample, sext32 t.acc, noisyFlag t.ncnt, t.ncnt, s.inp.cmdDiscard)
  trace : t.trace = s.trace ++ [.accept s.inp.cmdDiscard] ++
    Safety.lineEvents s.params s.gain.toNat (Safety.samplesOf ps) ++
    [.result t.resStatus t.resValue t.resNoisy t.resNcnt t.resDiscard]

/-- A full read: its windows, its gain pulses with CS_OFF, and its end. -/
theorem fullRead_run {s : State} {ps : List PortInputs} (h : Safety.FullRead s ps) :
    ∃ t, Safety.run (246 + 4 * s.gain.toNat) s = .next t ∧ FullReadEnd s ps t := by
  obtain ⟨rest, hs⟩ := h.script
  have hg : s.gain ≠ 0#2 := (State.admitted_iff s).mp h.gain
  obtain ⟨r, hr⟩ := Nat.exists_eq_add_one_of_ne_zero (n := s.gain.toNat) (by simpa [BitVec.toNat_eq] using hg)
  obtain ⟨p0, p1, p2, W, P, z, rfl, hW, hP⟩ := levels_split (h.long.trans (Nat.add_comm _ _))
  have hq := h.quiet
  simp only [List.mem_cons, List.mem_append, List.not_mem_nil, or_false, or_imp, forall_and, forall_eq] at hq
  obtain ⟨h0, h1, h2, hqW, hqP, hz⟩ := hq
  obtain ⟨v, ⟨q, hq, e⟩, hscript, hv⟩ := readWindows_run h.rst hg h.idle h.offered (W := W) (ps := P ++ z :: rest)
    (by simpa using hs) (by simp [h0, h1, h2]) (by simpa [Safety.levelAt] using h.ready) hW hqW
    fun w hw => samplesOf_cons (p0 := p0) (p1 := p1) (p2 := p2) (X := P ++ [z]) hW hw
  rw [← hv.gain] at hg
  obtain ⟨q', hq', e'⟩ := pulses_run r (u := { v with inp := q }) hq hg hv.phase
    (by simp [hv.gain, hv.noPulse, hr]) hscript (by simp [hP, hr]) hqP
  obtain ⟨t, e'', hidle, hacc, hncnt, hresults, htrace⟩ := readEnd_run (u := { v with
    clk := 0#1, cs := 0#1, g := v.gain, phase := PhaseCode.sext, script := z :: rest, inp := q'
    trace := v.trace ++ ((List.replicate r (Safety.pulseEvents v.params)).flatten ++ Safety.lastPulseEvents v.params) })
    hq' hg rfl rfl hz
  refine ⟨t, ?_, hidle, hacc ▸ hv.acc, hncnt ▸ hv.ncnt, ?_, ?_⟩
  · calc Safety.run (246 + 4 * s.gain.toNat) s
        = Safety.run (243 + (4 * (r + 1) + 1 + 2)) s := by rw [hr]; congr 1; omega
      _ = .next t := by rw [run_add _ _ _ _ e, run_add _ _ _ _ e', e'']
  · rw [hresults, hacc, hncnt, hv.disc]
  · rw [htrace, hv.trace, hv.params, hr]
    simp [Safety.lineEvents]

end Sys2Proof.Machine

namespace Sys2Proof

open Sys2Proof.Machine

/-- Settles O58: the trace at the end of a full read, put together window by window and pulse by pulse. -/
theorem aFullReadEmitsTheEventsInOrder : Obligations.AFullReadEmitsTheEventsInOrder := by
  intro s ps h
  obtain ⟨t, hrun, hend⟩ := fullRead_run h
  exact ⟨t, hrun, hend.trace⟩

end Sys2Proof
end

section
/-! SUPPORT. The result status codes of spec 30 R85: which of them a block action can leave. -/

namespace Sys2Proof.Machine

/-- What can change `RES_STATUS` writes one of the three codes of spec 30 R85: reset, a NotReady CHECK, COMPLETE. -/
theorem Took.resStatus_cases {s b : State} (hb : Took s b) :
    b.resStatus = s.resStatus ∨ b.resStatus = StatusCode.none ∨ b.resStatus = StatusCode.notReady ∨
      b.resStatus = StatusCode.sample := by
  cases hb with
  | reset => exact .inr (.inl rfl)
  | notReady => exact .inr (.inr (.inl rfl))
  | complete => exact .inr (.inr (.inr rfl))
  | _ => exact .inl rfl

end Sys2Proof.Machine

namespace Sys2Proof

open Sys2Proof.Machine

/-- Settles O41: a step keeps the status or writes one of the three codes, none of which is 0b11. -/
theorem noStepWritesTheUnusedStatus : Obligations.NoStepWritesTheUnusedStatus := by
  intro s t hs h
  obtain ⟨b, hb, rfl, _⟩ := took_of_step h
  rw [State.advance_resStatus]
  rcases hb.resStatus_cases with e | e | e | e <;> rw [e]
  · exact hs
  all_goals decide

end Sys2Proof
end

section
/-! SUPPORT. The phase IDLE of spec 40 R91: one equation for each way it goes, and the lines it finds. -/

namespace Sys2Proof.Machine

/-- With a command on offer, IDLE starts the read. -/
theorem exec_idle_of_offered {s : State} (h : s.inp.cmdValid = 1#1) : exec .idle s = .next s.accept := if_pos h

/-- With no command on offer, IDLE only writes its own phase code. -/
theorem exec_idle_of_not_offered {s : State} (h : s.inp.cmdValid = 0#1) :
    exec .idle s = .next (s.goto PhaseCode.idle) := if_neg (by simp [h])

/-- In IDLE both lines are low (spec 10 R38 item 1). -/
theorem linesLow_of_idle {s : State} (hi : Safety.Inv s) (hp : s.phase = PhaseCode.idle) :
    s.clk = 0#1 ∧ s.cs = 0#1 := by
  obtain ⟨⟨hidle, _⟩, _⟩ := hi
  exact hidle hp

end Sys2Proof.Machine

namespace Sys2Proof

open Sys2Proof.Machine

/-- Settles O8: IDLE goes by `cmd_valid`; its phase write changes nothing in IDLE; the lines are R38 item 1. -/
theorem idleAcceptsOrStutters : Obligations.IdleAcceptsOrStutters := by
  refine ⟨decode_idle, fun s hoffered => ?_, fun s hnone => ?_, fun s hnone hp => ?_, fun s hi hp => ?_⟩
  · exact exec_idle_of_offered hoffered
  · exact exec_idle_of_not_offered hnone
  · rw [exec_idle_of_not_offered hnone, State.goto_self hp]
  · exact linesLow_of_idle hi hp

end Sys2Proof
end

section
/-! SUPPORT. The majority filter of spec 41 R110 and R111 in the terms of its rules: sums, the Boolean formula, unanimity, and
what VOTE computes of it (R114). -/

namespace Sys2Proof.Machine

/-- The vote is 1 exactly when at least two samples are 1. -/
theorem maj3_eq_one_iff (a b c : BitVec 1) : maj3 a b c = 1#1 ↔ 2 ≤ a.toNat + b.toNat + c.toNat := by
  unfold maj3 sampleSum
  split <;> simp_all

/-- The vote as the Boolean majority formula, over the eight rows of spec 95 T1. -/
theorem maj3_eq_or_ands (a b c : BitVec 1) : maj3 a b c = (a &&& b) ||| (a &&& c) ||| (b &&& c) := by
  revert a b c; decide

/-- A window is noisy exactly when one or two of its samples are 1. -/
theorem noisy3_eq_one_iff (a b c : BitVec 1) :
    noisy3 a b c = 1#1 ↔ a.toNat + b.toNat + c.toNat = 1 ∨ a.toNat + b.toNat + c.toNat = 2 := by
  unfold noisy3 sampleSum
  split <;> simp_all

/-- A window is not noisy exactly when its samples are unanimous, over the eight rows of spec 95 T1. -/
theorem noisy3_eq_zero_iff (a b c : BitVec 1) : noisy3 a b c = 0#1 ↔ a = b ∧ b = c := by
  revert a b c; decide

/-- The vote, zero-extended to the accumulator's width. -/
theorem maj3_zeroExtend (a b c : BitVec 1) :
    (maj3 a b c).zeroExtend 24 = if 2 ≤ a.toNat + b.toNat + c.toNat then 1#24 else 0#24 := by
  unfold maj3 sampleSum
  split <;> rfl

/-- The count stays when the samples are unanimous, and else goes up by 1. -/
theorem countNoisy_eq (n : BitVec 5) (a b c : BitVec 1) :
    countNoisy n a b c = if a = b ∧ b = c then n else n + 1#5 := by
  unfold countNoisy
  rcases bit_cases (noisy3 a b c) with h | h
  · rw [if_neg (by simp [h]), if_pos ((noisy3_eq_zero_iff a b c).mp h)]
  · rw [if_pos h, if_neg fun hu => absurd ((noisy3_eq_zero_iff a b c).mpr hu) (by simp [h])]

/-- In a window that exists, the vote is ORed into ACC at bit `23 - I`. -/
theorem setWindowBit_of_le {i : BitVec 5} (h : i.toNat ≤ 23) (acc : BitVec 24) (m : BitVec 1) :
    setWindowBit acc i m = acc ||| (m.zeroExtend 24 <<< (23 - i.toNat)) := if_pos h

end Sys2Proof.Machine

namespace Sys2Proof

open Sys2Proof.Machine

/-- Settles O15: the vote as a sum and as the Boolean formula. -/
theorem majorityOfThreeSamples : Obligations.MajorityOfThreeSamples :=
  fun a b c => ⟨maj3_eq_one_iff a b c, maj3_eq_or_ands a b c⟩

/-- Settles O16: noisiness as a sum, and its absence as unanimity. -/
theorem noisyMeansNotUnanimous : Obligations.NoisyMeansNotUnanimous :=
  fun a b c => ⟨noisy3_eq_one_iff a b c, noisy3_eq_zero_iff a b c⟩

end Sys2Proof
end

section
/-! SUPPORT. The levels of the two lines in a phase, from the spans of spec 10 R38 items 2 and 3. -/

namespace Sys2Proof.Machine

/-- CLK is 1 in the phases of R38 item 3 and in no other. -/
theorem clk_eq_one_iff {s : State} (hi : Safety.Inv s) :
    s.clk = 1#1 ↔
      s.phase ∈ [PhaseCode.waitS, PhaseCode.sample, PhaseCode.vote, PhaseCode.fall, PhaseCode.gWaitH,
        PhaseCode.gFall] := by
  obtain ⟨⟨_, _, hclk, _⟩, _⟩ := hi
  exact hclk

/-- CS is 1 in the phases of R38 item 2 and in no other. -/
theorem cs_eq_one_iff {s : State} (hi : Safety.Inv s) :
    s.cs = 1#1 ↔
      s.phase ∈ [PhaseCode.rise, PhaseCode.waitS, PhaseCode.sample, PhaseCode.vote, PhaseCode.fall, PhaseCode.waitL,
        PhaseCode.gRise, PhaseCode.gWaitH, PhaseCode.gFall, PhaseCode.csOff] ∨
      (s.phase = PhaseCode.gWaitL ∧ s.g.toNat < s.gain.toNat) := by
  obtain ⟨⟨_, hcs, _⟩, _⟩ := hi
  exact hcs

end Sys2Proof.Machine
end

section
/-! SUPPORT. The phases of spec 41: the readiness check (R101), the start of the critical section (R102) and the bit window
(R103 to R105, R114, R116). One equation for each way a phase goes, then the obligations from these and the invariant. -/

namespace Sys2Proof.Machine

/-! ## CHECK and CS_ON -/

/-- With DATA 1, CHECK writes the NotReady result and the read is over. -/
theorem exec_check_of_notReady {s : State} (h : s.inp.dataIn = 1#1) :
    exec .check s =
      .next (((s.emit (.ready 1#1)).writeResult StatusCode.notReady 0#32 0#1 0#5).goto PhaseCode.idle) := by
  simp [exec, execCheck, State.readData, h]

/-- With DATA 0, CHECK goes on to CS_ON. -/
theorem exec_check_of_ready {s : State} (h : s.inp.dataIn = 0#1) :
    exec .check s = .next ((s.emit (.ready 0#1)).goto PhaseCode.csOn) := by
  simp [exec, execCheck, State.readData, h]

/-- The only way into CS_ON is a CHECK that read 0. -/
theorem Took.ready_of_csOn {s b : State} (hb : Took s b) (hp : b.phase = PhaseCode.csOn) :
    s.phase = PhaseCode.check ∧ s.inp.dataIn = 0#1 := by
  cases hb with
  | ready _ p c => exact ⟨p, c⟩
  | stutter _ p => simp [p] at hp
  | reset => simp [State.reset] at hp
  | _ => simp at hp

/-! ## The bit window -/

/-- With `J` below 3, SAMPLE goes to the next wait. -/
theorem exec_sample_of_lt {s : State} (h : s.j.toNat < 3) :
    exec .sample s = .next { (s.putSample s.inp.dataIn).emit (.sample s.i s.j s.inp.dataIn) with
      j := s.j + 1#2, phase := PhaseCode.waitS } := if_pos h

/-- With `J` at 3, SAMPLE goes to VOTE. -/
theorem exec_sample_of_last {s : State} (h : s.j = 3#2) :
    exec .sample s = .next (((s.putSample s.inp.dataIn).emit (.sample s.i s.j s.inp.dataIn)).goto PhaseCode.vote) :=
  if_neg (by simp [h])

/-- A sample below the third leaves S3. -/
theorem State.putSample_of_lt {s : State} (h : s.j.toNat < 3) (v : BitVec 1) :
    s.putSample v = { s with
      s1 := if s.j = 1#2 then v else s.s1
      s2 := if s.j = 2#2 then v else s.s2 } := by
  have hj : s.j ≠ 3#2 := fun e => by simp [e] at h
  simp [State.putSample, hj]

/-- The third sample is S3's, and no other register's. -/
theorem State.putSample_of_last {s : State} (h : s.j = 3#2) (v : BitVec 1) : s.putSample v = { s with s3 := v } := by
  simp [State.putSample, h]

/-- In WAIT_S and SAMPLE, `J` is 1 to 3 (spec 10 R38 item 6). -/
theorem sampleIndex_of_phase {s : State} (hi : Safety.Inv s) (hp : s.phase ∈ [PhaseCode.waitS, PhaseCode.sample]) :
    1 ≤ s.j.toNat ∧ s.j.toNat ≤ 3 := by
  obtain ⟨⟨_, _, _, _, _, hj, _⟩, _⟩ := hi
  exact hj hp

/-- In every state of the invariant the window index names a window (spec 10 R21). -/
theorem windowIndex_le {s : State} (hi : Safety.Inv s) : s.i.toNat ≤ 23 := by
  obtain ⟨_, ⟨hle, _⟩, _⟩ := hi
  exact hle

/-- In VOTE no more windows were counted noisy than came before this one (spec 10 R38 item 5). -/
theorem noisyCount_le_of_vote {s : State} (hi : Safety.Inv s) (hp : s.phase = PhaseCode.vote) :
    s.ncnt.toNat ≤ s.i.toNat := by
  obtain ⟨⟨_, _, _, _, ⟨hn, _⟩, _⟩, _⟩ := hi
  exact hn (by simp [hp])

/-- Before window 23, WAIT_L goes to the next window. -/
theorem exec_waitL_of_lt {s : State} (h : s.i.toNat < 23) :
    exec .waitL s = .next { s.wait s.params.tL with i := s.i + 1#5, phase := PhaseCode.rise } := if_pos h

/-- From window 23 on, WAIT_L goes to the gain pulses. -/
theorem exec_waitL_of_ge {s : State} (h : 23 ≤ s.i.toNat) :
    exec .waitL s = .next ((s.wait s.params.tL).goto PhaseCode.gRise) := if_neg (by omega)

end Sys2Proof.Machine

namespace Sys2Proof

open Sys2Proof.Machine

/-- Settles O10: CHECK goes by DATA; its two events are appended one after the other. -/
theorem checkReadsReadinessOnce : Obligations.CheckReadsReadinessOnce := by
  refine ⟨decode_check, fun s h => ?_, fun s h => exec_check_of_ready h, fun s hi hp => ?_⟩
  · rw [exec_check_of_notReady h]
    simp [State.writeResult, State.emit, State.goto]
  · exact ⟨bit_eq_zero_of_ne_one (by simp [cs_eq_one_iff hi, hp]),
      bit_eq_zero_of_ne_one (by simp [clk_eq_one_iff hi, hp])⟩

/-- Settles O11: the equation of CS_ON, CS before the critical section, and the one way into CS_ON. -/
theorem csOnEntersTheCriticalSection : Obligations.CsOnEntersTheCriticalSection := by
  refine ⟨decode_csOn, fun s => rfl, fun s hi hp => ?_, fun s t h hp => ?_⟩
  · exact bit_eq_zero_of_ne_one (by simp [cs_eq_one_iff hi, hp])
  · obtain ⟨b, hb, rfl, _⟩ := took_of_step h
    exact hb.ready_of_csOn hp

/-- Settles O12: the equation of RISE, and from the invariant that its edge is a real one in a window that exists. -/
theorem riseStartsABitWindow : Obligations.RiseStartsABitWindow := by
  refine ⟨decode_rise, fun s => rfl, fun s hi hp => ⟨?_, windowIndex_le hi⟩⟩
  exact bit_eq_zero_of_ne_one (by simp [clk_eq_one_iff hi, hp])

/-- Settles O13: the equation of WAIT_S, and R38 item 6. -/
theorem waitSOnlyWaits : Obligations.WaitSOnlyWaits :=
  ⟨decode_waitS, fun _ => rfl, fun _ hi hp => sampleIndex_of_phase hi (by simp [hp])⟩

/-- Settles O14: SAMPLE goes by `J`, which also names the register it writes. -/
theorem sampleStoresTheLevelOfData : Obligations.SampleStoresTheLevelOfData := by
  refine ⟨decode_sample, fun s _ h => ?_, fun s h => ?_, fun s hi hp => ⟨?_, fun hj => ?_⟩⟩
  · rw [exec_sample_of_lt h, State.putSample_of_lt h]
    rfl
  · rw [exec_sample_of_last h, State.putSample_of_last h, h]
    rfl
  · exact (clk_eq_one_iff hi).mpr (by simp [hp])
  · have hrange := sampleIndex_of_phase hi (by simp [hp])
    simp [hj] at hrange

/-- Settles O18: the filter's lemmas rewrite what VOTE computes into R114's terms; the invariant says the rest. -/
theorem voteWritesTheWindowsBit : Obligations.VoteWritesTheWindowsBit := by
  refine ⟨decode_vote, fun s h => ?_, fun s hi hp => ?_⟩
  · rw [← maj3_zeroExtend, ← setWindowBit_of_le h, ← countNoisy_eq]
    rfl
  · obtain ⟨hle, hclear⟩ := windowBit_clear_of_vote hi hp
    exact ⟨hle, hclear, (clk_eq_one_iff hi).mpr (by simp [hp]), noisyCount_le_of_vote hi hp⟩

/-- Settles O21: WAIT_L goes by `I`. -/
theorem waitLGoesToTheNextWindowOrTheGainPulses : Obligations.WaitLGoesToTheNextWindowOrTheGainPulses :=
  ⟨decode_waitL, fun _ h => exec_waitL_of_lt h, fun _ h => exec_waitL_of_ge h⟩

end Sys2Proof
end

section
/-! SUPPORT. The gain pulses and the result of spec 42: the sign extension (R136), the phases G_WAIT_H to COMPLETE (R131, R132,
R134, R137, R138), and the CLK transitions of a whole read (R135), counted over the events of its windows and pulses. -/

namespace Sys2Proof.Machine

/-! ## Sign extension -/

/-- Above the 24-bit word, every bit of its sign extension is the word's top bit. -/
theorem sext32_getLsbD_of_ge (a : BitVec 24) {k : Nat} (hge : 24 ≤ k) (hlt : k < 32) :
    (sext32 a).getLsbD k = a.getLsbD 23 := by
  rw [sext32_eq_signExtend, BitVec.getLsbD_signExtend, BitVec.msb_eq_getLsbD_last]
  simp [hlt, Nat.not_lt.mpr hge]

/-- The bits of the 24-bit word are those of its sign extension. -/
theorem sext32_getLsbD_of_lt (a : BitVec 24) {k : Nat} (h : k < 24) : (sext32 a).getLsbD k = a.getLsbD k := by
  rw [sext32_eq_signExtend, BitVec.getLsbD_signExtend]
  simp [h, show k < 32 by omega]

/-- Sign extension keeps the signed value. -/
theorem sext32_toInt (a : BitVec 24) : (sext32 a).toInt = a.toInt := by
  rw [sext32_eq_signExtend, BitVec.toInt_signExtend_of_le (by omega)]

/-! ## The gain pulses and the end of a read -/

/-- While a pulse is being made, fewer pulses are counted than GAIN asks for (spec 10 R38 item 7). -/
theorem pulseCount_lt_of_pulse {s : State} (hi : Safety.Inv s)
    (hp : s.phase ∈ [PhaseCode.gRise, PhaseCode.gWaitH, PhaseCode.gFall]) : s.g.toNat < s.gain.toNat := by
  obtain ⟨⟨_, _, _, _, _, _, ⟨_, hlt, _⟩⟩, _⟩ := hi
  exact hlt hp

/-- While pulses are left, G_WAIT_L goes to the next. -/
theorem exec_gWaitL_of_lt {s : State} (h : s.g.toNat < s.gain.toNat) :
    exec .gWaitL s = .next ((s.wait s.params.tL).goto PhaseCode.gRise) := by
  simp [exec, execGWaitL, h]

/-- With all pulses made, G_WAIT_L goes to SEXT. -/
theorem exec_gWaitL_of_ge {s : State} (h : s.gain.toNat ≤ s.g.toNat) :
    exec .gWaitL s = .next ((s.wait s.params.tL).goto PhaseCode.sext) := by
  simp [exec, execGWaitL, Nat.not_lt.mpr h]

/-- In COMPLETE, VAL is the sign extension of ACC (spec 42 R137). -/
theorem val_eq_sext32_of_complete {s : State} (hi : Safety.Inv s) (hp : s.phase = PhaseCode.complete) :
    s.val = sext32 s.acc := by
  obtain ⟨_, ⟨_, _, _, _, hval⟩, _⟩ := hi
  exact hval hp

/-! ## CLK transitions of a read -/

/-- The CLK transitions are the rising and the falling ones. -/
theorem clkSets_eq_rising_add_falling (es : List Event) :
    Safety.clkSets es = es.count (.clkSet 1#1) + es.count (.clkSet 0#1) := by
  induction es with
  | nil => rfl
  | cons e es ih =>
    simp only [Safety.clkSets, List.countP_cons, List.count_cons] at ih ⊢
    cases e with
    | clkSet v => rcases bit_cases v with rfl | rfl <;> simp [Safety.isClkSet, ih] <;> omega
    | _ => simp [Safety.isClkSet, ih]

/-- A bit window has one edge of each direction. -/
theorem windowEvents_count_clkSet (p : Params) (w : Nat) (a : BitVec 1 × BitVec 1 × BitVec 1) (v : BitVec 1) :
    (Safety.windowEvents p w a).count (.clkSet v) = 1 := by
  rcases bit_cases v with rfl | rfl <;> simp [Safety.windowEvents]

/-- A gain pulse before the last has one edge of each direction. -/
theorem pulseEvents_count_clkSet (p : Params) (v : BitVec 1) : (Safety.pulseEvents p).count (.clkSet v) = 1 := by
  rcases bit_cases v with rfl | rfl <;> simp [Safety.pulseEvents]

/-- The last gain pulse has one edge of each direction: CS_OFF adds none. -/
theorem lastPulseEvents_count_clkSet (p : Params) (v : BitVec 1) :
    (Safety.lastPulseEvents p).count (.clkSet v) = 1 := by
  rcases bit_cases v with rfl | rfl <;> simp [Safety.lastPulseEvents]

/-- One edge of each direction per window and per pulse (spec 42 R135). -/
theorem lineEvents_count_clkSet (p : Params) {n : Nat} (hn : 0 < n)
    (f : Nat → BitVec 1 × BitVec 1 × BitVec 1) (v : BitVec 1) :
    (Safety.lineEvents p n f).count (.clkSet v) = 24 + n := by
  have hstart : [Event.ready 0#1, .csSet 1#1].count (.clkSet v) = 0 := by simp
  have hwindows : ((List.range 24).flatMap fun w => Safety.windowEvents p w (f w)).count (.clkSet v) = 24 := by
    simp [List.count_flatMap, Function.comp_def, windowEvents_count_clkSet]
  have hpulses : (List.replicate (n - 1) (Safety.pulseEvents p)).flatten.count (.clkSet v) = n - 1 := by
    simp [List.count_flatten, pulseEvents_count_clkSet]
  rw [Safety.lineEvents, List.count_append, List.count_append, List.count_append, hstart, hwindows, hpulses,
    lastPulseEvents_count_clkSet]
  omega

/-- The edges of one direction in a full read: none is outside its line events. -/
theorem FullReadEnd.count_clkSet {s t : State} {ps : List PortInputs} (hend : FullReadEnd s ps t)
    (hg : 0 < s.gain.toNat) (v : BitVec 1) :
    (Safety.newEvents s t).count (.clkSet v) = 24 + s.gain.toNat := by
  rw [newEvents_of_trace (by rw [hend.trace, List.append_assoc, List.append_assoc]), List.count_append,
    List.count_append, lineEvents_count_clkSet s.params hg]
  simp

/-- The two steps of a NotReady read (spec 41 R101): its result, its events, and no line touched; the environment's move
after CHECK is left open. -/
theorem notReadyRead_run {s : State} (hr : s.inp.rst = 0#1) (hg : s.gain ≠ 0#2) (hp : s.phase = PhaseCode.idle)
    (hc : s.inp.cmdValid = 1#1) {p : PortInputs} {ps} (hs : s.script = p :: ps) (hq : p.rst = 0#1)
    (hd : p.dataIn = 1#1) :
    ∃ t, Safety.run 2 s = .next t ∧ t.phase = PhaseCode.idle ∧ t.clk = s.clk ∧ t.cs = s.cs ∧
      Safety.results t = (StatusCode.notReady, 0#32, 0#1, 0#5, s.inp.cmdDiscard) ∧
      t.trace = s.trace ++ [.accept s.inp.cmdDiscard, .ready 1#1,
        .result StatusCode.notReady 0#32 0#1 0#5 s.inp.cmdDiscard] := by
  obtain ⟨q, hqr, hqd, e⟩ := Runs.one' hs hg (.accept hr hp hc)
  have e' := step_eq_of_took (s := { s.accept with inp := q, script := ps }) (fun _ => hg)
    (.notReady (hqr.trans hq) rfl (hqd.trans hd))
  exact ⟨_, (run_succ e).trans (run_succ e'), rfl, rfl, rfl, rfl, by simp⟩

end Sys2Proof.Machine

namespace Sys2Proof

open Sys2Proof.Machine

/-- Settles O27: the bits and the signed value of the sign extension; 24 bits bound the value. -/
theorem signExtensionKeepsTheSignedValue : Obligations.SignExtensionKeepsTheSignedValue := by
  intro a
  have hmin := a.le_toInt
  have hmax := a.toInt_lt
  rw [sext32_toInt]
  exact ⟨rfl, fun _ hge hlt => sext32_getLsbD_of_ge a hge hlt, fun _ h => sext32_getLsbD_of_lt a h, rfl,
    by omega, by omega⟩

/-- Settles O59: a full read's edges are counted in either direction, and summed; a NotReady read's events hold none. -/
theorem aFullReadMakes48Plus2GainTransitions : Obligations.AFullReadMakes48Plus2GainTransitions := by
  refine ⟨fun s ps h => ?_, fun s p rest hp hg hr hc hs hq hd => ?_⟩
  · obtain ⟨t, hrun, hend⟩ := fullRead_run h
    have hg : s.gain ≠ 0#2 := (State.admitted_iff s).mp h.gain
    have hcount := hend.count_clkSet (Nat.pos_of_ne_zero (by simpa [BitVec.toNat_eq] using hg))
    refine ⟨t, hrun, hcount 1#1, hcount 0#1, ?_⟩
    rw [clkSets_eq_rising_add_falling, hcount, hcount]
    omega
  · obtain ⟨t, hrun, _, _, _, _, htrace⟩ := notReadyRead_run hr ((State.admitted_iff s).mp hg) hp hc hs hq hd
    refine ⟨t, hrun, ?_⟩
    rw [newEvents_of_trace htrace]
    rfl

/-- Settles O23: the equation of G_WAIT_H, and R38 item 3. -/
theorem gWaitHKeepsTheClockHigh : Obligations.GWaitHKeepsTheClockHigh :=
  ⟨decode_gWaitH, fun _ => rfl, fun _ hi hp => (clk_eq_one_iff hi).mpr (by simp [hp])⟩

/-- Settles O24: the equation of G_FALL; the count is below GAIN, so the 2-bit add does not wrap. -/
theorem gFallCountsThePulse : Obligations.GFallCountsThePulse := by
  refine ⟨decode_gFall, fun s => rfl, fun s hi hp => ?_⟩
  have hlt : s.g.toNat < s.gain.toNat := pulseCount_lt_of_pulse hi (by simp [hp])
  have hgain := s.gain.isLt
  exact ⟨BitVec.toNat_add_of_lt (show s.g.toNat + 1 < 2 ^ 2 by omega), hlt, by omega⟩

/-- Settles O26: G_WAIT_L goes by the pulses left, and so does CS (R38 item 2). -/
theorem gWaitLGoesToTheNextPulseOrToSext : Obligations.GWaitLGoesToTheNextPulseOrToSext := by
  refine ⟨decode_gWaitL, fun s h => exec_gWaitL_of_lt h, fun s h => exec_gWaitL_of_ge h, fun s hi hp => ⟨?_, ?_⟩⟩
  · exact bit_eq_zero_of_ne_one (by simp [clk_eq_one_iff hi, hp])
  · simp [cs_eq_one_iff hi, hp]

/-- Settles O28: the equation of SEXT, and R38 item 2. -/
theorem sextWidensTheAccumulator : Obligations.SextWidensTheAccumulator := by
  refine ⟨decode_sext, fun s => ?_, fun s hi hp => bit_eq_zero_of_ne_one (by simp [cs_eq_one_iff hi, hp])⟩
  rw [← sext32_eq_signExtend]
  rfl

/-- Settles O29: the equation of COMPLETE, the ports on both sides of its step, and the invariant's VAL and CS. -/
theorem completeWritesTheSampleResult : Obligations.CompleteWritesTheSampleResult := by
  refine ⟨decode_complete, fun s => rfl, fun s t h hr hp => ?_, fun s hi hp => ⟨?_, ?_⟩⟩
  · have hidle : t.phase = PhaseCode.idle := by rw [eq_advance_of_took h (.complete hr hp)]; rfl
    refine ⟨?_, ?_, ?_, fun hrt => (State.cmdReady_iff t).mpr ⟨hidle, hrt⟩⟩
    · simp [State.busy, hp]
    · simp [State.cmdReady, hp]
    · simp [State.busy, hidle]
  · rw [val_eq_sext32_of_complete hi hp, sext32_eq_signExtend]
  · exact bit_eq_zero_of_ne_one (by simp [cs_eq_one_iff hi, hp])

end Sys2Proof
end

section
/-! SUPPORT. The outcomes of spec 60: a step answers a next state or refuses an invalid gain (R173), and a NotReady read
touches no line (R161). -/

namespace Sys2Proof.Machine

/-- A reset step answers a next state whatever the gain; out of reset, so does every instruction a valid gain lets run. -/
theorem step_total_of_valid {s : State} (hg : s.gain ≠ 0#2) : ∃ t, step s = .next t := by
  rcases bit_cases s.inp.rst with hr | hr
  · obtain ⟨b, hb⟩ := exec_total (decode s.fetchCode) s
    exact ⟨_, step_of_exec hr hg hb⟩
  · exact ⟨_, step_of_rst hr⟩

/-- With an invalid gain only a reset step answers a next state (spec 30 R75); every other step is refused. -/
theorem step_of_invalid_cases {s : State} (hg : s.gain = 0#2) :
    (∃ t, step s = .next t) ∨ step s = .refused .invalidGain := by
  rcases bit_cases s.inp.rst with hr | hr
  · exact .inr (step_of_invalid hr hg)
  · exact .inl ⟨_, step_of_rst hr⟩

end Sys2Proof.Machine

namespace Sys2Proof

open Sys2Proof.Machine

/-- Settles O33: a valid gain always gives a next state; an invalid one is where the refusal falls. -/
theorem everyAdmittedStateHasAStep : Obligations.EveryAdmittedStateHasAStep := by
  refine ⟨fun s => ?_, fun s hg => step_total_of_valid ((State.admitted_iff s).mp hg)⟩
  by_cases hg : s.gain = 0#2
  · have hinvalid : gainWellFormed s.gain = false := by rw [hg]; rfl
    exact (step_of_invalid_cases hg).imp_right fun h => ⟨hinvalid, h⟩
  · exact .inl (step_total_of_valid hg)

/-- Settles O56: the run of a NotReady read, acceptance and a CHECK that reads 1. -/
theorem aNotReadyReadTouchesNoLine : Obligations.ANotReadyReadTouchesNoLine := by
  intro s p rest hp hg hr hc hs hq hd
  obtain ⟨t, hrun, _, hclk, hcs, hresults, htrace⟩ :=
    notReadyRead_run hr ((State.admitted_iff s).mp hg) hp hc hs hq hd
  exact ⟨t, hrun, hclk, hcs, hresults, htrace⟩

end Sys2Proof
end

section
/-! SUPPORT. Decoder and encoder of spec 30: inverse to each other on codes, and what raw bits a code can be (R88). -/

namespace Sys2Proof

/-- The decoder reads every instruction from the code the encoder gives it. -/
theorem decode_encode (i : Instr) : decode (encode i) = i := by cases i <;> rfl

/-- Every code is the one the encoder gives to its instruction: no code is left over (spec 30 R72, R81). -/
theorem encode_decode (c : Code) : encode (decode c) = c := by
  cases c with
  | cmd w => rcases bit_cases w with rfl | rfl <;> rfl
  | phase w =>
    rcases phase_cases w with
      rfl | rfl | rfl | rfl | rfl | rfl | rfl | rfl | rfl | rfl | rfl | rfl | rfl | rfl | rfl | rfl <;> rfl

/-- The raw bits of a code decode to its instruction. -/
theorem decodeRaw_raw (c : Code) : decodeRaw c.raw = .ok (decode c) := by
  cases c with
  | cmd w => simp [decodeRaw, Code.raw, Format.ofWidth, decode, show w.toNat < 2 from w.isLt]
  | phase w => simp [decodeRaw, Code.raw, Format.ofWidth, decode, show w.toNat < 16 from w.isLt]

/-- Raw bits are those of a code exactly when they have the width of a format and their value fits it. -/
theorem exists_raw_eq_iff (r : RawWord) :
    (∃ c : Code, c.raw = r) ↔ (r.nbits = 1 ∧ r.value < 2) ∨ (r.nbits = 4 ∧ r.value < 16) := by
  constructor
  · rintro ⟨c, rfl⟩
    cases c with
    | cmd w => exact .inl ⟨rfl, w.isLt⟩
    | phase w => exact .inr ⟨rfl, w.isLt⟩
  · obtain ⟨n, v⟩ := r
    rintro (⟨rfl, hv⟩ | ⟨rfl, hv⟩)
    · exact ⟨.cmd (BitVec.ofNat 1 v), by simp [Code.raw, Nat.mod_eq_of_lt hv]⟩
    · exact ⟨.phase (BitVec.ofNat 4 v), by simp [Code.raw, Nat.mod_eq_of_lt hv]⟩

/-- The decoder accepts raw bits of the two widths only, and only values that fit them. -/
theorem width_of_decodeRaw {r : RawWord} {i : Instr} (h : decodeRaw r = .ok i) :
    (r.nbits = 1 ∧ r.value < 2) ∨ (r.nbits = 4 ∧ r.value < 16) := by
  unfold decodeRaw Format.ofWidth at h
  by_cases h1 : r.nbits = 1
  · by_cases hv : r.value < 2
    · exact .inl ⟨h1, hv⟩
    · simp [h1, hv] at h
  · by_cases h4 : r.nbits = 4
    · by_cases hv : r.value < 16
      · exact .inr ⟨h4, hv⟩
      · simp [h4, hv] at h
    · simp [h1, h4] at h

/-- Raw bits decode to an instruction exactly when they are those of a code that does. -/
theorem decodeRaw_eq_ok_iff (r : RawWord) (i : Instr) :
    decodeRaw r = .ok i ↔ ∃ c : Code, c.raw = r ∧ decode c = i := by
  constructor
  · intro h
    obtain ⟨c, rfl⟩ := (exists_raw_eq_iff r).mpr (width_of_decodeRaw h)
    rw [decodeRaw_raw] at h
    exact ⟨c, rfl, by injection h⟩
  · rintro ⟨c, rfl, rfl⟩
    exact decodeRaw_raw c

/-- Settles O4: a code that decodes to `i` is `encode i`, decoder and encoder being inverse to each other. -/
theorem decodeAndEncodeAgreeExactly : Obligations.DecodeAndEncodeAgreeExactly := by
  intro r i
  rw [decodeRaw_eq_ok_iff]
  constructor
  · rintro ⟨c, rfl, rfl⟩
    rw [encode_decode]
  · rintro rfl
    exact ⟨encode i, rfl, decode_encode i⟩

/-- Settles O5: raw bits decode exactly when they are those of a code, and codes are what fits the two widths. -/
theorem onlyTheTwoFixedWidthsDecode : Obligations.OnlyTheTwoFixedWidthsDecode := by
  intro r
  rw [← exists_raw_eq_iff]
  constructor
  · rintro ⟨i, h⟩
    obtain ⟨c, hc, _⟩ := (decodeRaw_eq_ok_iff r i).mp h
    exact ⟨c, hc⟩
  · rintro ⟨c, rfl⟩
    exact ⟨decode c, decodeRaw_raw c⟩

/-- Settles O1: each word of the table is the raw word of its row's instruction, which decodes to it. -/
theorem tableWordsDecodeToTheirRows : Obligations.TableWordsDecodeToTheirRows :=
  have row (i : Instr) : decodeRaw (encode i).raw = .ok i := (decodeAndEncodeAgreeExactly _ _).mpr rfl
  ⟨row .read, row .setup, row .idle, row .check, row .csOn, row .rise, row .waitS, row .sample, row .vote, row .fall,
    row .waitL, row .gRise, row .gWaitH, row .gFall, row .csOff, row .gWaitL, row .sext, row .complete⟩

/-- Settles O2: the command word decodes by its one bit; the two fetches are the two branches of the fetch. -/
theorem everyCommandWordIsACommand : Obligations.EveryCommandWordIsACommand :=
  ⟨fun _ => rfl, fun _ hp hc => if_pos ⟨hp, hc⟩, fun _ hc => if_neg fun h => by simp [hc] at h⟩

/-- Settles O3: the encoder undoes the decoder, so the decoder is injective on phase codes. -/
theorem everyPhaseCodeIsAMicroOperation : Obligations.EveryPhaseCodeIsAMicroOperation := by
  refine ⟨fun w => encode_decode _, fun v w h => ?_⟩
  have hcode : Code.phase v = .phase w := by rw [← encode_decode (.phase v), h, encode_decode]
  injection hcode

end Sys2Proof
end

section
/-! SUPPORT. The invariant of spec 10 R38 with what makes it inductive: that every block action keeps it, item by item. In
each item the actions that write one of its registers stand out; the rest only move on to a phase of the same span. -/

namespace Sys2Proof.Machine

/-! ## Counts that do not wrap -/

/-- Before the last window, the 5-bit add to the window index does not wrap (spec 10 R21). -/
theorem windowIndex_succ {i : BitVec 5} (h : i.toNat < 23) : (i + 1#5).toNat = i.toNat + 1 :=
  BitVec.toNat_add_of_lt (show i.toNat + 1 < 2 ^ 5 by omega)

/-- Below the third sample, the 2-bit add to the sample index does not wrap (spec 10 R22). -/
theorem sampleIndex_succ {j : BitVec 2} (h : j.toNat < 3) : (j + 1#2).toNat = j.toNat + 1 :=
  BitVec.toNat_add_of_lt (show j.toNat + 1 < 2 ^ 2 by omega)

/-- Below GAIN, the 2-bit add to the pulse count does not wrap (spec 10 R23). -/
theorem pulseCount_succ {g gain : BitVec 2} (h : g.toNat < gain.toNat) : (g + 1#2).toNat = g.toNat + 1 :=
  BitVec.toNat_add_of_lt (show g.toNat + 1 < 2 ^ 2 by have := gain.isLt; omega)

/-- Where the pulse just made is not the last, the count is still below GAIN (spec 42 R132). -/
theorem pulseCount_succ_lt {g gain : BitVec 2} (h : g.toNat < gain.toNat) (hne : g + 1#2 ≠ gain) :
    (g + 1#2).toNat < gain.toNat := by
  have hne' : (g + 1#2).toNat ≠ gain.toNat := fun e => hne (BitVec.eq_of_toNat_eq e)
  rw [pulseCount_succ h] at hne' ⊢
  omega

/-- A gain that is not 0 asks for at least one pulse (spec 30 R74). -/
theorem gain_toNat_pos {gain : BitVec 2} (h : gain ≠ 0#2) : 0 < gain.toNat :=
  Nat.pos_of_ne_zero (by simpa [BitVec.toNat_eq] using h)

/-- In CS_OFF, SEXT and COMPLETE all pulses are made (spec 10 R38 item 7). -/
theorem pulseCount_eq_gain {s : State} (hi : Safety.Inv s)
    (hp : s.phase ∈ [PhaseCode.csOff, PhaseCode.sext, PhaseCode.complete]) : s.g = s.gain := by
  obtain ⟨⟨_, _, _, _, _, _, ⟨_, _, _, hall, _⟩⟩, _⟩ := hi
  exact hall hp

/-! ## The lines -/

/-- R38 item 1 is kept: a read ends in CHECK or COMPLETE, both lines low. -/
theorem Took.idleLinesLow {s b : State} (hb : Took s b) (hi : Safety.Inv s) : Safety.IdleLinesLow b := by
  intro hp
  cases hb with
  | reset => exact ⟨rfl, rfl⟩
  | stutter => exact linesLow_of_idle hi hp
  | notReady _ p | complete _ p =>
    exact ⟨bit_eq_zero_of_ne_one (by simp [clk_eq_one_iff hi, p]),
      bit_eq_zero_of_ne_one (by simp [cs_eq_one_iff hi, p])⟩
  | _ => simp at hp

/-- R38 item 2 is kept: CS_ON and CS_OFF open and close the critical section, and G_FALL leaves it open while pulses are
left. -/
theorem Took.criticalSectionSpan {s b : State} (hb : Took s b) (hi : Safety.Inv s) : Safety.CriticalSectionSpan b := by
  have hcs := cs_eq_one_iff hi
  cases hb with
  | reset => simp [Safety.CriticalSectionSpan, State.reset]
  | gFallMore _ p c =>
    have hlt := pulseCount_succ_lt (pulseCount_lt_of_pulse hi (by simp [p])) c
    exact ⟨fun _ => .inr ⟨rfl, hlt⟩, fun _ => hcs.mpr (by simp [p])⟩
  | csOff _ p => simp [Safety.CriticalSectionSpan, pulseCount_eq_gain hi (by simp [p])]
  | _ => simp_all [Safety.CriticalSectionSpan]

/-- R38 item 3 is kept: the four phases that drive CLK lie at the borders of its spans. -/
theorem Took.clockHighPhases {s b : State} (hb : Took s b) (hi : Safety.Inv s) : Safety.ClockHighPhases b := by
  have hclk := clk_eq_one_iff hi
  cases hb with
  | reset => simp [Safety.ClockHighPhases, State.reset]
  | _ => simp_all [Safety.ClockHighPhases]

/-! ## The accumulator and the counts -/

/-- R38 item 4 is kept: ACC is 0 before the first window, and WAIT_L moves on past the bit that was voted. -/
theorem Took.unvotedBitsClear {s b : State} (hb : Took s b) (hi : Safety.Inv s) : Safety.UnvotedBitsClear b := by
  obtain ⟨⟨_, _, _, hclear, _⟩, ⟨_, _, hfirst, hrest, _⟩, _⟩ := hi
  intro hp
  cases hb with
  | csOn _ p =>
    obtain ⟨_, hacc, _⟩ := hfirst (by simp [p])
    intro k _ _
    simp [hacc]
  | rise _ p | waitS _ p | sampleMore _ p | sampleLast _ p => exact hclear (by simp [p])
  | waitLMore _ p c =>
    rw [windowIndex_succ c]
    exact hrest (by simp [p])
  | stutter _ p => simp [p] at hp
  | reset => simp [State.reset] at hp
  | _ => simp at hp

/-- R38 item 5 is kept: a vote counts at most 1, and WAIT_L moves on to the next window. -/
theorem Took.noisyCountBound {s b : State} (hb : Took s b) (hi : Safety.Inv s) : Safety.NoisyCountBound b := by
  have hle := windowIndex_le hi
  obtain ⟨⟨_, _, _, _, hn, _⟩, ⟨_, _, hfirst, _⟩, _⟩ := hi
  obtain ⟨hbefore, hafter, hmax⟩ := hn
  cases hb with
  | reset => simp [Safety.NoisyCountBound, State.reset]
  | accept => simp [Safety.NoisyCountBound]
  | vote _ p =>
    have hlow := hbefore (by simp [p])
    have hvote := countNoisy_toNat_le (n := s.ncnt) (by omega) s.s1 s.s2 s.s3
    exact ⟨by simp, fun _ => hvote.trans (Nat.succ_le_succ hlow), hvote.trans (by omega)⟩
  | waitLMore _ p c =>
    refine ⟨fun _ => ?_, by simp, hmax⟩
    rw [windowIndex_succ c]
    exact hafter (by simp [p])
  | _ => simp_all [Safety.NoisyCountBound]

/-- R38 item 6 is kept: RISE starts `J` at 1 and SAMPLE counts it to 3. -/
theorem Took.sampleIndexRange {s b : State} (hb : Took s b) (hi : Safety.Inv s) : Safety.SampleIndexRange b := by
  have hj := sampleIndex_of_phase hi
  intro hp
  cases hb with
  | rise => simp
  | waitS _ p => exact hj (by simp [p])
  | sampleMore _ p c =>
    rw [sampleIndex_succ c]
    exact ⟨Nat.le_add_left _ _, c⟩
  | stutter _ p => simp [p] at hp
  | reset => simp [State.reset] at hp
  | _ => simp at hp

/-- R38 item 7 is kept: acceptance clears `G`, and G_FALL counts it to GAIN. -/
theorem Took.pulseCountRange {s b : State} (hb : Took s b) (hi : Safety.Inv s)
    (hg : s.inp.rst = 0#1 → s.gain ≠ 0#2) : Safety.PulseCountRange b := by
  have hpulse := pulseCount_lt_of_pulse hi
  have hall := pulseCount_eq_gain hi
  obtain ⟨⟨_, _, _, _, _, _, hrange⟩, _⟩ := hi
  cases hb with
  | reset => simp [Safety.PulseCountRange, State.reset]
  | waitLLast h p =>
    obtain ⟨hzero, _⟩ := hrange
    simp [Safety.PulseCountRange, hzero (by simp [p]), gain_toNat_pos (hg h)]
  | gFallMore _ p c =>
    have hlt := hpulse (by simp [p])
    have hnext := pulseCount_succ_lt hlt c
    rw [pulseCount_succ hlt] at hnext
    simp [Safety.PulseCountRange, -BitVec.toNat_add, pulseCount_succ hlt, hnext.le]
  | csOff h p => simp [Safety.PulseCountRange, hall (by simp [p]), Nat.succ_le_of_lt (gain_toNat_pos (hg h))]
  | gWaitLLast _ p c =>
    obtain ⟨_, _, _, _, hle⟩ := hrange
    simp [Safety.PulseCountRange, BitVec.eq_of_toNat_eq (hle.antisymm c)]
  | _ => simp_all [Safety.PulseCountRange]

/-! ## The progress of a read -/

/-- The window index stays one of a window: WAIT_L counts it up only below 23. -/
theorem Took.windowIndex_in_range {s b : State} (hb : Took s b) (hi : Safety.Inv s) : b.i.toNat ≤ 23 := by
  have hle := windowIndex_le hi
  cases hb with
  | reset => simp [State.reset]
  | accept => simp
  | waitLMore _ _ c => rw [windowIndex_succ c]; exact c
  | _ => exact hle

/-- A busy block's gain stays valid: out of reset GAIN stays, and reset leaves the block idle. -/
theorem Took.gain_ne_zero {s b : State} (hb : Took s b) (hg : s.inp.rst = 0#1 → s.gain ≠ 0#2)
    (hbusy : b.phase ≠ PhaseCode.idle) : b.gain ≠ 0#2 := by
  cases hb with
  | reset => exact absurd rfl hbusy
  | _ => exact hg ‹_›

/-- CHECK and CS_ON find the work registers as acceptance cleared them (spec 40 R91). -/
theorem Took.workCleared {s b : State} (hb : Took s b) (hi : Safety.Inv s)
    (hp : b.phase ∈ [PhaseCode.check, PhaseCode.csOn]) : b.i = 0#5 ∧ b.acc = 0#24 ∧ b.ncnt = 0#5 := by
  obtain ⟨_, ⟨_, _, hfirst, _⟩, _⟩ := hi
  cases hb with
  | accept => simp
  | ready _ p => exact hfirst (by simp [p])
  | stutter _ p => simp [p] at hp
  | reset => simp [State.reset] at hp
  | _ => simp at hp

/-- In FALL and WAIT_L the bits after the window's own are 0: VOTE writes no other. -/
theorem Took.laterBitsClear {s b : State} (hb : Took s b) (hi : Safety.Inv s)
    (hp : b.phase ∈ [PhaseCode.fall, PhaseCode.waitL]) : Safety.unvotedClear b.acc (b.i.toNat + 1) := by
  have hle := windowIndex_le hi
  obtain ⟨⟨_, _, _, hclear, _⟩, ⟨_, _, _, hrest, _⟩, _⟩ := hi
  cases hb with
  | vote _ p =>
    intro k hk hlater
    have hlater : s.i.toNat + 1 ≤ k := hlater
    rw [setWindowBit_getLsbD hle, hclear (by simp [p]) k hk (by omega)]
    simp
    omega
  | fall _ p => exact hrest (by simp [p])
  | stutter _ p => simp [p] at hp
  | reset => simp [State.reset] at hp
  | _ => simp at hp

/-- COMPLETE finds in VAL what SEXT made of ACC (spec 42 R137). -/
theorem Took.val_eq_sext32 {s b : State} (hb : Took s b) (hp : b.phase = PhaseCode.complete) :
    b.val = sext32 b.acc := by
  cases hb with
  | sext => rfl
  | stutter _ p => simp [p] at hp
  | reset => simp [State.reset] at hp
  | _ => simp at hp

/-- What makes R38 inductive is kept. -/
theorem Took.readProgress {s b : State} (hb : Took s b) (hi : Safety.Inv s)
    (hg : s.inp.rst = 0#1 → s.gain ≠ 0#2) : Safety.ReadProgress b :=
  ⟨hb.windowIndex_in_range hi, hb.gain_ne_zero hg, hb.workCleared hi, hb.laterBitsClear hi, hb.val_eq_sext32⟩

/-! ## The result registers -/

/-- The result registers stay consistent: a NotReady result is all zeros, and COMPLETE's is the read's own count and the
sign extension that SEXT made. -/
theorem Took.resultsConsistent {s b : State} (hb : Took s b) (hi : Safety.Inv s) : Safety.ResultsConsistent b := by
  have hval := val_eq_sext32_of_complete hi
  obtain ⟨⟨_, _, _, _, ⟨_, _, hmax⟩, _⟩, _, hres⟩ := hi
  cases hb with
  | reset => simp [Safety.ResultsConsistent, State.reset]
  | notReady => simp [Safety.ResultsConsistent]
  | complete _ p =>
    refine ⟨by simp, fun h => absurd rfl h, noisyFlag_eq_one_iff _, hmax, ?_⟩
    rw [State.goto_resValue, State.writeResult_resValue, hval p, sext32_extract, sext32_eq_signExtend]
  | _ => exact hres

/-- Every block action keeps the invariant. -/
theorem Took.inv {s b : State} (hb : Took s b) (hi : Safety.Inv s) (hg : s.inp.rst = 0#1 → s.gain ≠ 0#2) :
    Safety.Inv b :=
  ⟨⟨hb.idleLinesLow hi, hb.criticalSectionSpan hi, hb.clockHighPhases hi, hb.unvotedBitsClear hi,
    hb.noisyCountBound hi, hb.sampleIndexRange hi, hb.pulseCountRange hi hg⟩,
    hb.readProgress hi hg, hb.resultsConsistent hi⟩

/-- The invariant speaks of the block alone: the environment's move keeps it. -/
theorem inv_advance {b : State} (s : State) (hi : Safety.Inv b) : Safety.Inv (b.advance s) := hi

/-- Every state that meets the block part of the launch premises meets the invariant (spec 70 R186). -/
theorem inv_of_launch {s : State} (h : Safety.Launch s) : Safety.Inv s := by
  obtain ⟨hreset, _, _⟩ := h
  rw [hreset]
  simp [Safety.Inv, Safety.Rule38, Safety.IdleLinesLow, Safety.CriticalSectionSpan, Safety.ClockHighPhases,
    Safety.UnvotedBitsClear, Safety.NoisyCountBound, Safety.SampleIndexRange, Safety.PulseCountRange,
    Safety.ReadProgress, Safety.ResultsConsistent, State.reset]

end Sys2Proof.Machine

namespace Sys2Proof

open Sys2Proof.Machine

/-- Settles O40: the block action of a step keeps the invariant item by item, and the environment's touches none. -/
theorem everyStepKeepsTheInvariant : Obligations.EveryStepKeepsTheInvariant := by
  intro s t hi h
  obtain ⟨b, hb, rfl, hg⟩ := took_of_step h
  exact inv_advance s (hb.inv hi hg)

/-- Settles O39: the reset values meet the invariant, and the model's launch state holds them. -/
theorem invariantHoldsAtLaunch : Obligations.InvariantHoldsAtLaunch :=
  ⟨fun _ => inv_of_launch, rfl, rfl, rfl⟩

end Sys2Proof
end

section
/-! SUPPORT. What a block action records: the events it appends, DISC and the result registers. Two states that agree on
all that an action reads take the same action with the same kind of record; the noninterference statements of spec 20
R52, 30 R70 and 40 R90, R91 are cases of that. -/

namespace Sys2Proof.Machine

/-- The kinds of record: events alone, an acceptance, a result after events, a reset. -/
inductive Record where
  | events (es : List Event)
  | acceptance
  | result (es : List Event) (status : BitVec 2) (value : BitVec 32) (noisy : BitVec 1) (ncnt : BitVec 5)
  | reset (es : List Event)

/-- The events on record, given DISC and the command word before the action. -/
@[simp] def Record.eventsOf (disc cmd : BitVec 1) : Record → List Event
  | .events es => es
  | .acceptance => [.accept cmd]
  | .result es st x ny n => es ++ [.result st x ny n disc]
  | .reset es => es

/-- DISC after the action. -/
@[simp] def Record.discOf (disc cmd : BitVec 1) : Record → BitVec 1
  | .events _ => disc
  | .acceptance => cmd
  | .result _ _ _ _ _ => disc
  | .reset _ => 0#1

/-- The result registers after the action, given those before it and DISC. -/
@[simp] def Record.resultsOf (old : BitVec 2 × BitVec 32 × BitVec 1 × BitVec 5 × BitVec 1) (disc : BitVec 1) :
    Record → BitVec 2 × BitVec 32 × BitVec 1 × BitVec 5 × BitVec 1
  | .events _ => old
  | .acceptance => old
  | .result _ st x ny n => (st, x, ny, n, disc)
  | .reset _ => (StatusCode.none, 0#32, 0#1, 0#5, 0#1)

/-- The action that takes `s` to `b` leaves this record. -/
structure Record.Left (r : Record) (s b : State) : Prop where
  trace : b.trace = s.trace ++ r.eventsOf s.disc s.inp.cmdDiscard
  disc : b.disc = r.discOf s.disc s.inp.cmdDiscard
  results : Safety.results b = r.resultsOf (Safety.results s) s.disc

/-- The events on record are the ones the action appended. -/
theorem Record.Left.newEvents {r : Record} {s b : State} (h : r.Left s b) :
    Safety.newEvents s b = r.eventsOf s.disc s.inp.cmdDiscard := newEvents_of_trace h.trace

/-- Without the command word, the events on record do not depend on where it was. -/
theorem Record.eventsOf_eraseDiscard (r : Record) (disc cmd disc' cmd' : BitVec 1) :
    (r.eventsOf disc cmd).map Safety.eraseDiscard = (r.eventsOf disc' cmd').map Safety.eraseDiscard := by
  cases r with
  | events | reset => rfl
  | acceptance => rfl
  | result => simp [Safety.eraseDiscard]

/-- Equal but for what is on record and the input ports. -/
def SameButRecord (s t : State) : Prop :=
  t = { s with
        disc := t.disc, resStatus := t.resStatus, resValue := t.resValue, resNoisy := t.resNoisy, resNcnt := t.resNcnt
        resDiscard := t.resDiscard, trace := t.trace, inp := t.inp }

/-- All that a block action reads is the same, but for the command word and DISC, which it only records: of the ports,
`rst`, in reset `cfg_gain`, in IDLE `cmd_valid`, in CHECK and SAMPLE DATA. -/
structure SameAction (s t : State) : Prop where
  rest : SameButRecord s t
  rst : t.inp.rst = s.inp.rst
  cfgGain : s.inp.rst = 1#1 → t.inp.cfgGain = s.inp.cfgGain
  cmdValid : s.inp.rst = 0#1 → s.phase = PhaseCode.idle → t.inp.cmdValid = s.inp.cmdValid
  dataIn : s.phase ∈ [PhaseCode.check, PhaseCode.sample] → t.inp.dataIn = s.inp.dataIn

/-- Two states that agree on what an action reads take the same action, with the same kind of record. -/
theorem Took.alike {s t b : State} (hb : Took s b) (h : SameAction s t) :
    ∃ (b' : State) (r : Record), Took t b' ∧ SameButRecord b b' ∧ r.Left s b ∧ r.Left t b' := by
  obtain ⟨ht, hr, hgain, hcmd, hdata⟩ := h
  obtain ⟨disc, st, x, ny, n, d, es, q, rfl⟩ : ∃ disc st x ny n d es q, t = { s with
      disc := disc, resStatus := st, resValue := x, resNoisy := ny, resNcnt := n, resDiscard := d, trace := es
      inp := q } := ⟨_, _, _, _, _, _, _, _, ht⟩
  cases hb with
  | reset h =>
    exact ⟨_, .reset s.resetEvents, .reset (hr.trans h), by simpa [SameButRecord, State.resetStep] using hgain h,
      ⟨rfl, rfl, rfl⟩, ⟨rfl, rfl, rfl⟩⟩
  | accept h p c =>
    exact ⟨_, .acceptance, .accept (hr.trans h) p ((hcmd h p).trans c), rfl, ⟨rfl, rfl, rfl⟩, ⟨rfl, rfl, rfl⟩⟩
  | stutter h p c =>
    exact ⟨_, .events [], .stutter (hr.trans h) p ((hcmd h p).trans c), rfl, ⟨by simp, rfl, rfl⟩, ⟨by simp, rfl, rfl⟩⟩
  | notReady h p c =>
    exact ⟨_, .result [.ready 1#1] _ _ _ _, .notReady (hr.trans h) p ((hdata (by simp [p])).trans c), rfl,
      ⟨by simp, rfl, rfl⟩, ⟨by simp, rfl, rfl⟩⟩
  | ready h p c =>
    exact ⟨_, .events _, .ready (hr.trans h) p ((hdata (by simp [p])).trans c), rfl,
      ⟨rfl, rfl, rfl⟩, ⟨rfl, rfl, rfl⟩⟩
  | sampleMore h p c =>
    rw [← hdata (by simp [p])]
    exact ⟨_, .events _, .sampleMore (hr.trans h) p c, rfl, ⟨rfl, rfl, rfl⟩, ⟨rfl, rfl, rfl⟩⟩
  | sampleLast h p c =>
    rw [← hdata (by simp [p])]
    exact ⟨_, .events _, .sampleLast (hr.trans h) p c, rfl, ⟨rfl, rfl, rfl⟩, ⟨rfl, rfl, rfl⟩⟩
  | complete h p =>
    exact ⟨_, .result [] _ _ _ _, .complete (hr.trans h) p, rfl, ⟨by simp, rfl, rfl⟩, ⟨by simp, rfl, rfl⟩⟩
  | csOn h p => exact ⟨_, .events _, .csOn (hr.trans h) p, rfl, ⟨rfl, rfl, rfl⟩, ⟨rfl, rfl, rfl⟩⟩
  | rise h p => exact ⟨_, .events _, .rise (hr.trans h) p, rfl, ⟨rfl, rfl, rfl⟩, ⟨rfl, rfl, rfl⟩⟩
  | waitS h p => exact ⟨_, .events _, .waitS (hr.trans h) p, rfl, ⟨rfl, rfl, rfl⟩, ⟨rfl, rfl, rfl⟩⟩
  | vote h p => exact ⟨_, .events [], .vote (hr.trans h) p, rfl, ⟨by simp, rfl, rfl⟩, ⟨by simp, rfl, rfl⟩⟩
  | fall h p => exact ⟨_, .events _, .fall (hr.trans h) p, rfl, ⟨rfl, rfl, rfl⟩, ⟨rfl, rfl, rfl⟩⟩
  | waitLMore h p c => exact ⟨_, .events _, .waitLMore (hr.trans h) p c, rfl, ⟨rfl, rfl, rfl⟩, ⟨rfl, rfl, rfl⟩⟩
  | waitLLast h p c => exact ⟨_, .events _, .waitLLast (hr.trans h) p c, rfl, ⟨rfl, rfl, rfl⟩, ⟨rfl, rfl, rfl⟩⟩
  | gRise h p => exact ⟨_, .events _, .gRise (hr.trans h) p, rfl, ⟨rfl, rfl, rfl⟩, ⟨rfl, rfl, rfl⟩⟩
  | gWaitH h p => exact ⟨_, .events _, .gWaitH (hr.trans h) p, rfl, ⟨rfl, rfl, rfl⟩, ⟨rfl, rfl, rfl⟩⟩
  | gFallMore h p c => exact ⟨_, .events _, .gFallMore (hr.trans h) p c, rfl, ⟨rfl, rfl, rfl⟩, ⟨rfl, rfl, rfl⟩⟩
  | gFallLast h p c => exact ⟨_, .events _, .gFallLast (hr.trans h) p c, rfl, ⟨rfl, rfl, rfl⟩, ⟨rfl, rfl, rfl⟩⟩
  | csOff h p => exact ⟨_, .events _, .csOff (hr.trans h) p, rfl, ⟨rfl, rfl, rfl⟩, ⟨rfl, rfl, rfl⟩⟩
  | gWaitLMore h p c => exact ⟨_, .events _, .gWaitLMore (hr.trans h) p c, rfl, ⟨rfl, rfl, rfl⟩, ⟨rfl, rfl, rfl⟩⟩
  | gWaitLLast h p c => exact ⟨_, .events _, .gWaitLLast (hr.trans h) p c, rfl, ⟨rfl, rfl, rfl⟩, ⟨rfl, rfl, rfl⟩⟩
  | sext h p => exact ⟨_, .events [], .sext (hr.trans h) p, rfl, ⟨by simp, rfl, rfl⟩, ⟨by simp, rfl, rfl⟩⟩

/-! ## The events of one kind -/

/-- `busy` in the terms of spec 10 R37. -/
theorem State.busy_iff (s : State) : s.busy = true ↔ s.phase ≠ PhaseCode.idle := by simp [State.busy]

/-- `Accept` is emitted exactly by acceptance: a command on offer, out of reset, in IDLE (spec 40 R90). -/
theorem Took.accept_mem_newEvents_iff {s b : State} (hb : Took s b) :
    (∃ d, .accept d ∈ Safety.newEvents s b) ↔
      s.inp.cmdValid = 1#1 ∧ s.inp.rst = 0#1 ∧ s.phase = PhaseCode.idle := by
  cases hb with
  | reset h => simp [newEvents_of_trace (State.resetStep_trace s), State.resetEvents, h]
  | accept h p c => simp [Safety.newEvents, h, p, c]
  | stutter _ _ c => simp [Safety.newEvents, c]
  | _ => simp [Safety.newEvents, *]

/-- A block action appends at most three events, the reset step's. -/
theorem Took.trace_append {s b : State} (hb : Took s b) : ∃ es, b.trace = s.trace ++ es ∧ es.length ≤ 3 := by
  cases hb with
  | reset =>
    refine ⟨s.resetEvents, rfl, ?_⟩
    unfold State.resetEvents
    split <;> split <;> simp
  | notReady => exact ⟨[.ready 1#1, .result StatusCode.notReady 0#32 0#1 0#5 s.disc], by simp, by simp⟩
  | stutter | vote | sext => exact ⟨[], by simp, by simp⟩
  | _ => exact ⟨[_], rfl, by simp⟩

/-- Out of reset, a busy block becomes idle only with a result, written and emitted together (spec 10 R36, 20 R66). -/
theorem Took.result_of_idle {s b : State} (hb : Took s b) (hr : s.inp.rst = 0#1) (hbusy : s.phase ≠ PhaseCode.idle)
    (hidle : b.phase = PhaseCode.idle) :
    .result b.resStatus b.resValue b.resNoisy b.resNcnt b.resDiscard ∈ Safety.newEvents s b ∧
      b.resDiscard = s.disc := by
  cases hb with
  | reset h => simp [hr] at h
  | accept _ p | stutter _ p => exact absurd p hbusy
  | notReady | complete => simp [Safety.newEvents]
  | _ => simp at hidle

/-! ## Frames -/

/-- Only a reset step writes GAIN. -/
theorem Took.gain_frame {s b : State} (hb : Took s b) (hr : s.inp.rst = 0#1) : b.gain = s.gain := by
  cases hb with
  | reset h => simp [hr] at h
  | _ => rfl

/-- No action writes the parameters. -/
theorem Took.params_frame {s b : State} (hb : Took s b) : b.params = s.params := by
  cases hb <;> rfl

/-! ## The same action -/

/-- Two states that also agree on what is on record differ in their ports only. -/
theorem SameButRecord.eq_of_record {s t : State} (h : SameButRecord s t) (htrace : t.trace = s.trace)
    (hdisc : t.disc = s.disc) (hres : Safety.results t = Safety.results s) : t = { s with inp := t.inp } := by
  simp only [Safety.results, Prod.mk.injEq] at hres
  obtain ⟨hst, hx, hny, hn, hd⟩ := hres
  refine h.trans ?_
  rw [htrace, hdisc, hst, hx, hny, hn, hd]

/-- No block action writes the input ports. -/
theorem Took.inp_frame {s b : State} (hb : Took s b) : b.inp = s.inp := by
  cases hb <;> rfl

/-- Ports that agree on what the action reads leave it the same action. -/
theorem Took.congr_inp {s b : State} (hb : Took s b) {q : PortInputs} (h : SameAction s { s with inp := q })
    (hcmd : q.cmdDiscard = s.inp.cmdDiscard) : Took { s with inp := q } { b with inp := q } := by
  obtain ⟨b', r, hb', hrest, hr, hr'⟩ := hb.alike h
  have htrace : b'.trace = b.trace := by rw [hr.trace, hr'.trace, hcmd]
  have hdisc : b'.disc = b.disc := by rw [hr.disc, hr'.disc, hcmd]
  have hres : Safety.results b' = Safety.results b := by rw [hr.results, hr'.results]; rfl
  rw [hrest.eq_of_record htrace hdisc hres, hb'.inp_frame] at hb'
  exact hb'

/-- Unless a step is refused, the block has an action to take. -/
theorem exists_took {s : State} (hg : s.inp.rst = 0#1 → s.gain ≠ 0#2) : ∃ b, Took s b := by
  rcases bit_cases s.inp.rst with hr | hr
  · obtain ⟨t, h⟩ := step_total_of_valid (hg hr)
    obtain ⟨b, hb, _⟩ := took_of_step h
    exact ⟨b, hb⟩
  · exact ⟨_, .reset hr⟩

/-- Ports that agree on what the step reads, and on the offer it keeps, leave it the same step. -/
theorem step_congr_inp {s : State} {q : PortInputs} (h : SameAction s { s with inp := q })
    (hvalid : q.cmdValid = s.inp.cmdValid) (hcmd : q.cmdDiscard = s.inp.cmdDiscard) :
    step { s with inp := q } = step s := by
  have hrst : q.rst = s.inp.rst := h.rst
  by_cases hg : s.inp.rst = 0#1 → s.gain ≠ 0#2
  · obtain ⟨b, hb⟩ := exists_took hg
    rw [step_eq_of_took hg hb, step_eq_of_took (by simpa [hrst] using hg) (hb.congr_inp h hcmd)]
    simp [State.advance, State.nextInputs, State.offerPending, State.cmdReady, State.envInputs, hrst, hvalid, hcmd]
  · obtain ⟨hr, hzero⟩ : s.inp.rst = 0#1 ∧ s.gain = 0#2 := by simpa using hg
    rw [step_of_invalid hr hzero, step_of_invalid (s := { s with inp := q }) (hrst.trans hr) hzero]

/-- An offer that is not accepted makes no difference to the block: without it the action is the same (spec 40 R90). -/
theorem Took.withdraw {s b : State} (hb : Took s b) (hn : ¬(s.inp.rst = 0#1 ∧ s.phase = PhaseCode.idle)) :
    Took { s with inp := { s.inp with cmdValid := 0#1 } } { b with inp := { s.inp with cmdValid := 0#1 } } :=
  hb.congr_inp ⟨rfl, rfl, fun _ => rfl, fun hr hp => absurd ⟨hr, hp⟩ hn, fun _ => rfl⟩ rfl

/-- The environment keeps an offer that the step does not accept (log entry 2). -/
theorem offer_kept {s : State} (hc : s.inp.cmdValid = 1#1) (hn : ¬(s.inp.rst = 0#1 ∧ s.phase = PhaseCode.idle)) :
    s.nextInputs.cmdValid = 1#1 ∧ s.nextInputs.cmdDiscard = s.inp.cmdDiscard := by
  have hp : s.offerPending = true := (State.offerPending_iff s).mpr ⟨hc, fun ⟨hp, hr⟩ => hn ⟨hr, hp⟩⟩
  simp [State.nextInputs, hp]

/-! ## Alike steps -/

/-- A step of one of two alike states, taken by the other (spec 60 R173: neither is refused alone). -/
theorem step_alike {s t s' : State} (h : SameAction s t) (hs : step s = .next s') :
    ∃ (b b' : State) (r : Record), s' = b.advance s ∧ step t = .next (b'.advance t) ∧ Took s b ∧ Took t b' ∧
      SameButRecord b b' ∧ r.Left s b ∧ r.Left t b' := by
  obtain ⟨b, hb, rfl, hg⟩ := took_of_step hs
  obtain ⟨b', r, hb', hrest, hr, hr'⟩ := hb.alike h
  have hgain : t.gain = s.gain := by rw [h.rest]
  exact ⟨b, b', r, rfl, step_eq_of_took (by rwa [h.rst, hgain]) hb', hb, hb', hrest, hr, hr'⟩

/-- Two reads that differ in the last results and the trace take the same actions. -/
theorem sameAction_of_sameRead {s t : State} (h : Safety.sameRead s t) : SameAction s t := by
  obtain ⟨st, x, ny, n, d, es, rfl⟩ : ∃ st x ny n d es, t = { s with
      resStatus := st, resValue := x, resNoisy := ny, resNcnt := n, resDiscard := d, trace := es } :=
    ⟨_, _, _, _, _, _, h⟩
  exact ⟨rfl, rfl, fun _ => rfl, fun _ _ => rfl, fun _ => rfl⟩

/-- Two blocks that differ in the command word and where it is copied take the same actions. -/
theorem sameAction_of_sameButDiscard {s t : State} (h : Safety.sameButDiscard s t) : SameAction s t := by
  obtain ⟨d, rd, es, c, rfl⟩ : ∃ d rd es c, t = { s with
      disc := d, resDiscard := rd, trace := es, inp := { s.inp with cmdDiscard := c } } := ⟨_, _, _, _, h.1⟩
  exact ⟨rfl, rfl, fun _ => rfl, fun _ _ => rfl, fun _ => rfl⟩

/-- Alike actions of two alike reads leave two alike reads. -/
theorem sameRead_advance {s t b b' : State} (h : Safety.sameRead s t) (hb : SameButRecord b b')
    (hd : b'.disc = b.disc) : Safety.sameRead (b.advance s) (b'.advance t) := by
  rw [hb, h, hd]
  rfl

/-- The ports driven next differ only in a kept command word. -/
theorem nextInputs_of_sameButDiscard {s t : State} (h : Safety.sameButDiscard s t) :
    t.nextInputs = { s.nextInputs with cmdDiscard := t.nextInputs.cmdDiscard } := by
  have hpending : t.offerPending = s.offerPending := by rw [h.1]; rfl
  have henv : t.envInputs = s.envInputs := by rw [h.1]; rfl
  rcases s.nextInputs_cases with ⟨hp, e⟩ | ⟨hp, e⟩ <;> simp [State.nextInputs, hpending, henv, hp]

/-- Where the results before differ in the discard bit only, so do those after. -/
theorem Record.Left.results_butDiscard {r : Record} {s t b b' : State} (hr : r.Left s b) (hr' : r.Left t b')
    (h : (t.resStatus, t.resValue, t.resNoisy, t.resNcnt) = (s.resStatus, s.resValue, s.resNoisy, s.resNcnt)) :
    (b'.resStatus, b'.resValue, b'.resNoisy, b'.resNcnt) = (b.resStatus, b.resValue, b.resNoisy, b.resNcnt) := by
  have e := hr.results
  have e' := hr'.results
  cases r <;> simp_all [Safety.results]

/-- Alike actions of two blocks that differ in the command word leave two such blocks. -/
theorem sameButDiscard_advance {s t b b' : State} {r : Record} (h : Safety.sameButDiscard s t)
    (hb : SameButRecord b b') (hr : r.Left s b) (hr' : r.Left t b') :
    Safety.sameButDiscard (b.advance s) (b'.advance t) := by
  have hnext := nextInputs_of_sameButDiscard h
  obtain ⟨hrest, herase⟩ := h
  have hres := hr.results_butDiscard hr' (by rw [hrest])
  simp only [Prod.mk.injEq] at hres
  obtain ⟨hst, hx, hny, hn⟩ := hres
  have hscript : t.script = s.script := by rw [hrest]
  have htick : t.tick = s.tick := by rw [hrest]
  constructor
  · rw [hb]
    simp only [State.advance, hscript, htick, hst, hx, hny, hn]
    rw [hnext]
  · rw [State.advance_trace, State.advance_trace, hr.trace, hr'.trace, List.map_append, List.map_append, herase,
      r.eventsOf_eraseDiscard]

/-- The ports driven next are the environment's, and what stands on offer. -/
theorem nextInputs_congr {s t : State} (hp : t.phase = s.phase) (hinp : t.inp = s.inp) (hscript : t.script = s.script)
    (htick : t.tick = s.tick) : t.nextInputs = s.nextInputs := by
  simp [State.nextInputs, State.offerPending, State.cmdReady, State.envInputs, hp, hinp, hscript, htick]

/-- Acceptance overwrites every work register (spec 40 R91): two idle blocks that accept the same command read alike. -/
theorem sameRead_accept {s t : State} (hp : t.phase = s.phase) (hclk : s.clk = t.clk) (hcs : s.cs = t.cs)
    (hparams : s.params = t.params) (hgain : s.gain = t.gain) (hinp : s.inp = t.inp) (hscript : s.script = t.script)
    (htick : s.tick = t.tick) : Safety.sameRead (s.accept.advance s) (t.accept.advance t) := by
  simp [Safety.sameRead, State.advance, State.accept, State.emit, State.goto, hclk, hcs, hparams, hgain, hinp, hscript,
    htick, nextInputs_congr hp hinp.symm hscript.symm htick.symm]

/-- The results a busy block ends with, by the way it ends: reset, NotReady, or COMPLETE. -/
def endResults (s : State) : BitVec 2 × BitVec 32 × BitVec 1 × BitVec 5 × BitVec 1 :=
  if s.inp.rst = 1#1 then (StatusCode.none, 0#32, 0#1, 0#5, 0#1)
  else if s.phase = PhaseCode.check then (StatusCode.notReady, 0#32, 0#1, 0#5, s.disc)
  else (StatusCode.sample, s.val, noisyFlag s.ncnt, s.ncnt, s.disc)

/-- A busy block that becomes idle writes all its results, from its own read alone (spec 10 R36). -/
theorem Took.results_of_end {s b : State} (hb : Took s b) (hbusy : s.phase ≠ PhaseCode.idle)
    (hidle : b.phase = PhaseCode.idle) : Safety.results b = endResults s := by
  cases hb with
  | reset h => simp [endResults, h]; rfl
  | accept _ p | stutter _ p => exact absurd p hbusy
  | notReady h p | complete h p => simp [endResults, h, p]
  | _ => simp at hidle

end Sys2Proof.Machine

namespace Sys2Proof

open Sys2Proof.Machine

/-- Settles O35: `Accept` is acceptance's event alone; a step without acceptance keeps the offer, and withdrawing the
offer leaves its action the same. -/
theorem commandsWaitUntilTheBlockIsReady : Obligations.CommandsWaitUntilTheBlockIsReady := by
  intro s t h
  refine ⟨?_, fun hc hr hp => ?_, fun hc hn => ?_⟩
  · obtain ⟨b, hb, rfl, _⟩ := took_of_step h
    exact hb.accept_mem_newEvents_iff
  · rw [eq_advance_of_took h (.accept hr hp hc)]
    exact ⟨newEvents_of_trace rfl, rfl⟩
  · obtain ⟨b, hb, rfl, hg⟩ := took_of_step h
    obtain ⟨hvalid, hdiscard⟩ := offer_kept hc hn
    exact ⟨hvalid, hdiscard, _, step_eq_of_took hg (hb.withdraw hn), rfl⟩

/-- Settles O36: a reset step is the reset's own action; `Accept` needs IDLE out of reset; R33 and R34 say the rest. -/
theorem simultaneousEventsResolve : Obligations.SimultaneousEventsResolve := by
  refine ⟨fun s t h hr => ?_, fun s t h hbusy d hd => ?_, fun s hi hst => ?_⟩
  · rw [eq_advance_of_took h (.reset hr), newEvents_advance, newEvents_of_trace (State.resetStep_trace s)]
    exact ⟨rfl, by simp [State.resetEvents], by simp [State.resetEvents]⟩
  · obtain ⟨b, hb, rfl, _⟩ := took_of_step h
    obtain ⟨_, _, hp⟩ := hb.accept_mem_newEvents_iff.mp ⟨d, hd⟩
    exact absurd hp ((State.busy_iff s).mp hbusy)
  · obtain ⟨_, _, _, hzero, _⟩ := hi
    obtain ⟨_, hnoisy, hncnt⟩ := hzero (by simp [hst])
    exact ⟨hnoisy, hncnt⟩

/-- Settles O43: only a NotReady CHECK and COMPLETE make a busy block idle, and both write a result. -/
theorem busyFallsWithTheResults : Obligations.BusyFallsWithTheResults := by
  intro s t _ h hr hbusy hidle
  obtain ⟨b, hb, rfl, _⟩ := took_of_step h
  exact hb.result_of_idle hr ((State.busy_iff s).mp hbusy) (by simpa [State.busy] using hidle)

/-- Settles O47: the frames of GAIN and the parameters, and the reset step. -/
theorem gainIsHeldUntilTheNextReset : Obligations.GainIsHeldUntilTheNextReset := by
  intro s t h
  obtain ⟨b, hb, rfl, _⟩ := took_of_step h
  refine ⟨fun hr => hb.gain_frame hr, fun hr => ?_, hb.params_frame⟩
  rw [eq_advance_of_took h (.reset hr)]
  rfl

/-- Settles O49: every action appends to the trace. -/
theorem theTraceOnlyGrows : Obligations.TheTraceOnlyGrows := by
  intro s t h
  obtain ⟨b, hb, rfl, _⟩ := took_of_step h
  obtain ⟨es, htrace, hlen⟩ := hb.trace_append
  rw [newEvents_of_trace (s := s) (t := b.advance s) htrace]
  exact ⟨htrace, hlen⟩

/-- Settles O50: outside CHECK and SAMPLE, DATA is not among the ports a step reads. -/
theorem dataIsReadOnlyInCheckAndSample : Obligations.DataIsReadOnlyInCheckAndSample := by
  intro s v hcheck hsample
  refine step_congr_inp ⟨rfl, rfl, fun _ => rfl, fun _ _ => rfl, fun hp => ?_⟩ rfl rfl
  simp [hcheck, hsample] at hp

/-- Settles O51: the two blocks take the same action, and its record is the same but for the command word. -/
theorem readAndSetupDifferOnlyInTheDiscardBit : Obligations.ReadAndSetupDifferOnlyInTheDiscardBit := by
  intro s t s' h hs
  obtain ⟨b, b', r, rfl, ht, _, _, hrest, hr, hr'⟩ := step_alike (sameAction_of_sameButDiscard h) hs
  exact ⟨_, ht, sameButDiscard_advance h hrest hr hr'⟩

/-- Settles O52: acceptance overwrites every work register; afterwards the two blocks take the same action, with the
same record, and a read that ends writes all the results. -/
theorem noHiddenStateBetweenReads : Obligations.NoHiddenStateBetweenReads := by
  refine ⟨fun s t s' hp hp' hclk hcs hparams hgain hinp hscript htick hr hc hs => ?_, fun s t s' h hs => ?_⟩
  · obtain ⟨b, _, _, hg⟩ := took_of_step hs
    rw [eq_advance_of_took hs (.accept hr hp hc)]
    refine ⟨_, step_eq_of_took (by rwa [← hinp, ← hgain]) (.accept (by rwa [← hinp]) hp' (by rwa [← hinp])),
      sameRead_accept (hp'.trans hp.symm) hclk hcs hparams hgain hinp hscript htick, ?_⟩
    rw [newEvents_of_trace rfl, newEvents_of_trace rfl, hinp]
  · obtain ⟨b, b', r, rfl, ht, hb, hb', hrest, hr, hr'⟩ := step_alike (sameAction_of_sameRead h) hs
    have hdisc : t.disc = s.disc := by rw [h]
    have hinp : t.inp = s.inp := by rw [h]
    refine ⟨_, ht, sameRead_advance h hrest (by rw [hr.disc, hr'.disc, hdisc, hinp]), ?_, fun hbusy hidle => ?_⟩
    · rw [newEvents_advance, newEvents_advance, hr.newEvents, hr'.newEvents, hdisc, hinp]
    · have hbusy' : t.phase ≠ PhaseCode.idle := by rwa [h]
      have hidle' : b'.phase = PhaseCode.idle := by rwa [hrest]
      have hend : endResults t = endResults s := by rw [h]; rfl
      rw [State.advance_results, State.advance_results, hb.results_of_end hbusy hidle,
        hb'.results_of_end hbusy' hidle', hend]

end Sys2Proof
end

section
/-! SUPPORT. The rest of a read (spec 42 R135, R139), step by step: what the counts of steps and of CLK transitions still
to come lose in each block action. -/

namespace Sys2Proof.Machine

/-- Where the pulse just made is the last, GAIN asked for just one more (spec 42 R132). -/
theorem gain_eq_succ_of_last {g gain : BitVec 2} (h : g.toNat < gain.toNat) (hlast : g + 1#2 = gain) :
    gain.toNat = g.toNat + 1 := by
  rw [← pulseCount_succ h, hlast]

/-- Every action of a full read brings its end exactly one step nearer (spec 42 R139). Inside a window or a pulse the
action only moves on; at a border, the index or the count says what is left. -/
theorem Took.stepsLeft_succ {s b : State} (hb : Took s b) (hi : Safety.Inv s) (hr : s.inp.rst = 0#1)
    (hbusy : s.phase ≠ PhaseCode.idle) (hd : s.phase = PhaseCode.check → s.inp.dataIn = 0#1) :
    Safety.stepsLeft b + 1 = Safety.stepsLeft s := by
  have hpulse := pulseCount_lt_of_pulse hi
  have hle := windowIndex_le hi
  have hall := pulseCount_eq_gain hi
  obtain ⟨_, ⟨_, _, hfirst, _⟩, _⟩ := hi
  simp only [Safety.stepsLeft, Safety.pulsesLeft]
  cases hb with
  | reset h => simp [hr] at h
  | accept _ p | stutter _ p => exact absurd p hbusy
  | notReady _ p c => simp [hd p] at c
  | gRise _ p | gWaitH _ p | sext _ p | complete _ p => simp [p]
  | ready _ p | rise _ p | waitS _ p | vote _ p | fall _ p | waitLLast _ p => simp [p]; omega
  | csOn _ p =>
    obtain ⟨hzero, _⟩ := hfirst (by simp [p])
    simp [p, hzero]; omega
  | sampleMore _ p c => simp [p, -BitVec.toNat_add, sampleIndex_succ c]; omega
  | sampleLast _ p c => simp [p, c]; omega
  | waitLMore _ p c => simp [p, -BitVec.toNat_add, windowIndex_succ c]; omega
  | gFallMore _ p c =>
    have hlt := hpulse (by simp [p])
    have hnext := pulseCount_succ_lt hlt c
    rw [pulseCount_succ hlt] at hnext
    simp [p, -BitVec.toNat_add, pulseCount_succ hlt, Nat.sub_eq_zero_iff_le, hnext.not_ge]; omega
  | gFallLast _ p c =>
    have hlast := gain_eq_succ_of_last (hpulse (by simp [p])) c
    simp [p, hlast]
  | csOff _ p => simp [p, hall]
  | gWaitLMore _ p c => simp [p, Nat.sub_eq_zero_iff_le, c.not_ge]
  | gWaitLLast _ p c => simp [p, Nat.sub_eq_zero_of_le c]

/-- What an action of a full read emits of CLK transitions is what their count loses (spec 42 R135). -/
theorem Took.clkSetsLeft_add {s b : State} (hb : Took s b) (hi : Safety.Inv s) (hr : s.inp.rst = 0#1)
    (hbusy : s.phase ≠ PhaseCode.idle) (hd : s.phase = PhaseCode.check → s.inp.dataIn = 0#1) :
    Safety.clkSets (Safety.newEvents s b) + Safety.clkSetsLeft b = Safety.clkSetsLeft s := by
  have hpulse := pulseCount_lt_of_pulse hi
  have hle := windowIndex_le hi
  have hall := pulseCount_eq_gain hi
  obtain ⟨_, ⟨_, _, hfirst, _⟩, _⟩ := hi
  simp only [Safety.clkSetsLeft, Safety.pulsesLeft, Safety.clkSets, Safety.newEvents]
  cases hb with
  | reset h => simp [hr] at h
  | accept _ p | stutter _ p => exact absurd p hbusy
  | notReady _ p c => simp [hd p] at c
  | ready _ p | waitS _ p | sampleMore _ p | sampleLast _ p | vote _ p | gWaitH _ p | gWaitLMore _ p | sext _ p
  | complete _ p | fall _ p => simp [p, Safety.isClkSet]
  | rise _ p | waitLLast _ p => simp [p, Safety.isClkSet]; omega
  | csOn _ p =>
    obtain ⟨hzero, _⟩ := hfirst (by simp [p])
    simp [p, Safety.isClkSet, hzero]; omega
  | waitLMore _ p c => simp [p, Safety.isClkSet, -BitVec.toNat_add, windowIndex_succ c]; omega
  | gRise _ p =>
    have hlt := hpulse (by simp [p])
    simp [p, Safety.isClkSet]; omega
  | gFallMore _ p =>
    have hlt := hpulse (by simp [p])
    simp [p, Safety.isClkSet, -BitVec.toNat_add, pulseCount_succ hlt]; omega
  | gFallLast _ p c =>
    have hlast := gain_eq_succ_of_last (hpulse (by simp [p])) c
    simp [p, Safety.isClkSet, hlast]
  | csOff _ p => simp [p, Safety.isClkSet, hall]
  | gWaitLLast _ p c => simp [p, Safety.isClkSet, Nat.sub_eq_zero_of_le c]

end Sys2Proof.Machine

namespace Sys2Proof

open Sys2Proof.Machine

/-- Settles O53: the block action of a step brings the end one step nearer. -/
theorem everyStepOfAReadBringsItsEndNearer : Obligations.EveryStepOfAReadBringsItsEndNearer := by
  intro s t hi h hr hbusy hd
  obtain ⟨b, hb, rfl, _⟩ := took_of_step h
  exact hb.stepsLeft_succ hi hr ((State.busy_iff s).mp hbusy) hd

/-- Settles O54: the block action of a step emits what the count loses. -/
theorem clockTransitionsOfAReadAddUp : Obligations.ClockTransitionsOfAReadAddUp := by
  intro s t hi h hr hbusy hd
  obtain ⟨b, hb, rfl, _⟩ := took_of_step h
  exact hb.clkSetsLeft_add hi hr ((State.busy_iff s).mp hbusy) hd

end Sys2Proof
end

section
/-! SUPPORT. What a full read comes to: its length in steps (spec 42 R139), its result (40 R92, R93, 42 R136 to R138)
and its nominal waits (70 R195, R196). -/

namespace Sys2Proof.Machine

/-! ## The length of a read -/

/-- A run of one step more. -/
theorem run_snoc {n : Nat} {s u t : State} (h : Safety.run n s = .next u) (ht : step u = .next t) :
    Safety.run (n + 1) s = .next t := by
  rw [run_add _ _ _ _ h, run_succ ht]
  rfl

/-- A block with steps of a read left is busy. -/
theorem busy_of_stepsLeft {s : State} (h : 0 < Safety.stepsLeft s) : s.phase ≠ PhaseCode.idle := by
  intro hp
  simp [Safety.stepsLeft, hp] at h

/-- CHECK is entered from IDLE alone. -/
theorem Took.phase_ne_check {s b : State} (hb : Took s b) (hbusy : s.phase ≠ PhaseCode.idle) :
    b.phase ≠ PhaseCode.check := by
  cases hb with
  | accept _ p | stutter _ p => exact absurd p hbusy
  | reset => simp [State.reset]
  | _ => simp

/-- A busy block of the invariant has a valid gain (spec 30 R75). -/
theorem gain_ne_zero_of_busy {s : State} (hi : Safety.Inv s) (hbusy : s.phase ≠ PhaseCode.idle) : s.gain ≠ 0#2 := by
  obtain ⟨_, ⟨_, hg, _⟩, _⟩ := hi
  exact hg hbusy

/-- The state `u` after `k` steps of a full read of `s` with the levels `ps`: not in reset, in CHECK with the readiness
level 0, the levels from `k` on still to come, and the steps taken and left adding up (spec 42 R139). -/
structure FullReadAt (s : State) (ps : List PortInputs) (k : Nat) (u : State) : Prop where
  run : Safety.run k s = .next u
  inv : Safety.Inv u
  rst : u.inp.rst = 0#1
  ready : u.phase = PhaseCode.check → u.inp.dataIn = 0#1
  script : ∃ rest, u.script = ps.drop k ++ rest
  stepsLeft : Safety.stepsLeft u + k = 246 + 4 * s.gain.toNat

/-- The accepting step of a full read. -/
theorem fullReadAt_one {s : State} {ps : List PortInputs} (h : Safety.FullRead s ps) : ∃ u, FullReadAt s ps 1 u := by
  have hg : s.gain ≠ 0#2 := (State.admitted_iff s).mp h.gain
  have hb := Took.accept h.rst h.idle h.offered
  obtain ⟨p, l, rfl⟩ : ∃ p l, ps = p :: l := List.exists_cons_of_length_pos (by have := h.long; omega)
  obtain ⟨rest, hs⟩ := h.script
  obtain ⟨hr, hd, _⟩ := State.nextInputs_of_script hs
  refine ⟨s.accept.advance s, run_succ (step_eq_of_took (fun _ => hg) hb), hb.inv h.inv fun _ => hg,
    hr.trans (h.quiet p (by simp)), fun _ => hd.trans (by simpa [Safety.levelAt] using h.ready), ⟨rest, ?_⟩, ?_⟩
  · rw [State.advance_script, hs]
    rfl
  · simp [Safety.stepsLeft, Safety.pulsesLeft]
    omega

/-- One more step of a full read that is not over. -/
theorem FullReadAt.next {s u : State} {ps : List PortInputs} {k : Nat} (h : FullReadAt s ps k u)
    (hread : Safety.FullRead s ps) (hk : k < ps.length) : ∃ t, FullReadAt s ps (k + 1) t := by
  have hleft := h.stepsLeft
  have hbusy : u.phase ≠ PhaseCode.idle := busy_of_stepsLeft (by have := hread.long; omega)
  have hg := gain_ne_zero_of_busy h.inv hbusy
  obtain ⟨b, hb⟩ := exists_took fun _ => hg
  obtain ⟨rest, hs⟩ := h.script
  rw [List.drop_eq_getElem_cons hk, List.cons_append] at hs
  obtain ⟨hr, _⟩ := State.nextInputs_of_script hs
  refine ⟨b.advance u, run_snoc h.run (step_eq_of_took (fun _ => hg) hb), hb.inv h.inv fun _ => hg,
    hr.trans (hread.quiet _ (by simp)), fun hp => absurd hp (hb.phase_ne_check hbusy), ⟨rest, ?_⟩, ?_⟩
  · rw [State.advance_script, hs, List.tail_cons]
  · have hsucc : Safety.stepsLeft (b.advance u) + 1 = Safety.stepsLeft u :=
      hb.stepsLeft_succ h.inv h.rst hbusy h.ready
    omega

/-- Every state of a full read, from its acceptance to its last step. -/
theorem exists_fullReadAt {s : State} {ps : List PortInputs} (h : Safety.FullRead s ps) {k : Nat} (hpos : 0 < k)
    (hk : k ≤ ps.length) : ∃ u, FullReadAt s ps k u := by
  induction k, hpos using Nat.le_induction with
  | base => exact fullReadAt_one h
  | succ k _ ih =>
    obtain ⟨u, hu⟩ := ih (by omega)
    exact hu.next h hk

/-! ## The result -/

/-- A window is noisy exactly when its samples are not unanimous (spec 41 R111). -/
theorem noisy3_eq_one_iff_not_unanimous (a b c : BitVec 1) : noisy3 a b c = 1#1 ↔ ¬(a = b ∧ b = c) := by
  rw [← noisy3_eq_zero_iff]
  rcases bit_cases (noisy3 a b c) with h | h <;> simp [h]

/-- The windows a read counts noisy are those whose samples are not unanimous. -/
theorem noisyWindows_eq (f : Nat → BitVec 1 × BitVec 1 × BitVec 1) :
    Safety.noisyWindows f = (List.range 24).countP fun w => noisy3 (f w).1 (f w).2.1 (f w).2.2 == 1#1 :=
  List.countP_congr fun w _ => by
    simp [noisy3_eq_one_iff_not_unanimous, imp_iff_not_or]

/-! ## The nominal waits -/

/-- Waits of traces add up. -/
theorem waitSum_append (es es' : List Event) :
    Safety.waitSum (es ++ es') = Safety.waitSum es + Safety.waitSum es' := by
  simp [Safety.waitSum]

/-- Stretches of equal waits, one per entry. -/
theorem waitSum_flatMap {α : Type} {f : α → List Event} {n : Nat} (hf : ∀ a, Safety.waitSum (f a) = n) (l : List α) :
    Safety.waitSum (l.flatMap f) = l.length * n := by
  induction l with
  | nil => simp [Safety.waitSum]
  | cons a l ih => rw [List.flatMap_cons, waitSum_append, hf, ih, List.length_cons, Nat.succ_mul, Nat.add_comm]

/-- The waits of a bit window: `T_S` before each sample, `T_L` after the falling edge. -/
theorem windowEvents_waitSum (p : Params) (w : Nat) (v : BitVec 1 × BitVec 1 × BitVec 1) :
    Safety.waitSum (Safety.windowEvents p w v) = 3 * p.tS + p.tL := by
  simp [Safety.windowEvents, Safety.waitSum, Safety.waitOf]
  omega

/-- The waits of a gain pulse: `T_L` after each edge. -/
theorem pulseEvents_waitSum (p : Params) : Safety.waitSum (Safety.pulseEvents p) = 2 * p.tL := by
  simp [Safety.pulseEvents, Safety.waitSum, Safety.waitOf]
  omega

/-- The part waited with CS 1, over a stretch that leaves CS as it is. -/
theorem csWaitSum_append {es : List Event} (h : ∀ v, .csSet v ∉ es) (cs : BitVec 1) (es' : List Event) :
    Safety.csWaitSum cs (es ++ es') = (if cs = 1#1 then Safety.waitSum es else 0) + Safety.csWaitSum cs es' := by
  induction es with
  | nil => simp [Safety.waitSum]
  | cons e es ih =>
    have ih := ih fun v hv => h v (by simp [hv])
    cases e with
    | csSet v => exact absurd (by simp) (h v)
    | _ => simp [Safety.csWaitSum, ih, Safety.waitSum]; split <;> simp [Nat.add_assoc]

/-- The waits of the last gain pulse are as long: CS_OFF waits nothing. -/
theorem lastPulseEvents_waitSum (p : Params) : Safety.waitSum (Safety.lastPulseEvents p) = 2 * p.tL := by
  simp [Safety.lastPulseEvents, Safety.waitSum, Safety.waitOf]
  omega

/-- The waits of 24 bit windows. -/
theorem windows_waitSum (p : Params) (f : Nat → BitVec 1 × BitVec 1 × BitVec 1) :
    Safety.waitSum ((List.range 24).flatMap fun w => Safety.windowEvents p w (f w)) = 24 * (3 * p.tS + p.tL) := by
  rw [waitSum_flatMap fun w => windowEvents_waitSum p w (f w), List.length_range]

/-- The waits of `n` gain pulses. -/
theorem pulses_waitSum (p : Params) (n : Nat) :
    Safety.waitSum (List.replicate n (Safety.pulseEvents p)).flatten = n * (2 * p.tL) := by
  induction n with
  | zero => simp [Safety.waitSum]
  | succ n ih => rw [List.replicate_succ, List.flatten_cons, waitSum_append, ih, pulseEvents_waitSum]; ring

/-- The waits of the line events: those of 24 windows and of the gain pulses. -/
theorem lineEvents_waitSum (p : Params) {n : Nat} (hn : 0 < n) (f : Nat → BitVec 1 × BitVec 1 × BitVec 1) :
    Safety.waitSum (Safety.lineEvents p n f) = 24 * (3 * p.tS + p.tL) + 2 * n * p.tL := by
  obtain ⟨r, rfl⟩ := Nat.exists_eq_add_one_of_ne_zero hn.ne'
  rw [Safety.lineEvents, waitSum_append, waitSum_append, waitSum_append, windows_waitSum, pulses_waitSum,
    lastPulseEvents_waitSum]
  simp [Safety.waitSum, Safety.waitOf]
  ring

/-- All of it is waited with CS 1 but for the last low wait, after CS_OFF (spec 42 R133). -/
theorem lineEvents_csWaitSum (p : Params) {n : Nat} (hn : 0 < n) (f : Nat → BitVec 1 × BitVec 1 × BitVec 1)
    (cs : BitVec 1) (es : List Event) :
    Safety.csWaitSum cs (Safety.lineEvents p n f ++ es) =
      24 * (3 * p.tS + p.tL) + (2 * n - 1) * p.tL + Safety.csWaitSum 0#1 es := by
  obtain ⟨r, rfl⟩ := Nat.exists_eq_add_one_of_ne_zero hn.ne'
  have hstart (es' : List Event) : Safety.csWaitSum cs ([.ready 0#1, .csSet 1#1] ++ es') =
      Safety.csWaitSum 1#1 es' := by
    simp [Safety.csWaitSum, Safety.waitOf]
  have hlast : Safety.csWaitSum 1#1 (Safety.lastPulseEvents p ++ es) = p.tL + Safety.csWaitSum 0#1 es := by
    simp [Safety.lastPulseEvents, Safety.csWaitSum, Safety.waitOf]
  rw [Safety.lineEvents, List.append_assoc, List.append_assoc, List.append_assoc, hstart,
    csWaitSum_append (by simp [Safety.windowEvents]), csWaitSum_append (by simp [Safety.pulseEvents]), hlast,
    windows_waitSum, pulses_waitSum, if_pos rfl, if_pos rfl, show 2 * (r + 1) - 1 = 2 * r + 1 by omega,
    Nat.add_sub_cancel]
  ring

end Sys2Proof.Machine

namespace Sys2Proof

open Sys2Proof.Machine

/-- Settles O55: a NotReady read is two computed steps; in a full read, the steps left say when it is over. -/
theorem readsTakeAFixedNumberOfSteps : Obligations.ReadsTakeAFixedNumberOfSteps := by
  refine ⟨fun s p rest hp hg hr hc hs hq hd => ⟨?_, ?_⟩, fun s ps h => ⟨fun k hpos hk => ?_, ?_⟩⟩
  · have hg := (State.admitted_iff s).mp hg
    exact ⟨_, step_eq_of_took (fun _ => hg) (.accept hr hp hc), rfl⟩
  · obtain ⟨t, hrun, hidle, _, _, hres, _⟩ := notReadyRead_run hr ((State.admitted_iff s).mp hg) hp hc hs hq hd
    exact ⟨t, hrun, hidle, congrArg Prod.fst hres⟩
  · obtain ⟨u, hu⟩ := exists_fullReadAt h hpos (by have := h.long; omega)
    have hleft := hu.stepsLeft
    exact ⟨u, hu.run, (State.busy_iff u).mpr (busy_of_stepsLeft (by omega))⟩
  · obtain ⟨t, hrun, hend⟩ := fullRead_run h
    exact ⟨t, hrun, hend.phase, congrArg Prod.fst hend.results⟩

/-- Settles O57: the end of a full read, its votes, count and value put in the terms of the samples. -/
theorem aFullReadReturnsTheVotedWord : Obligations.AFullReadReturnsTheVotedWord := by
  intro s ps h
  obtain ⟨t, hrun, hend⟩ := fullRead_run h
  have hcount := hend.ncnt
  rw [← noisyWindows_eq] at hcount
  have hres := hend.results
  simp only [Safety.results, Prod.mk.injEq] at hres
  obtain ⟨hst, hval, hnoisy, hncnt, hdiscard⟩ := hres
  refine ⟨t, t.acc, hrun, fun w hw => ?_, rfl, hst, ?_, ?_, ?_, hdiscard⟩
  · rw [hend.acc w hw, maj3_getLsbD_zero]
  · rw [hval, sext32_toInt]
  · rw [hncnt, hcount]
  · rw [hnoisy, noisyFlag_eq_one_iff, hcount]

/-- Settles O60: the waits of a full read are those of its line events. -/
theorem aFullReadWaitsItsNominalTime : Obligations.AFullReadWaitsItsNominalTime := by
  intro s ps h
  obtain ⟨t, hrun, hend⟩ := fullRead_run h
  have hpos : 0 < s.gain.toNat := gain_toNat_pos ((State.admitted_iff s).mp h.gain)
  have hnew := newEvents_of_trace (s := s) (by rw [hend.trace, List.append_assoc, List.append_assoc])
  refine ⟨t, hrun, ?_, ?_⟩
  · rw [hnew, waitSum_append, waitSum_append, lineEvents_waitSum _ hpos]
    simp [Safety.waitSum, Safety.waitOf]
  · rw [hnew, csWaitSum_append (by simp), lineEvents_csWaitSum _ hpos]
    simp [Safety.csWaitSum, Safety.waitSum, Safety.waitOf]

end Sys2Proof
end

section
/-! SUPPORT. Single instructions, steps and ports: the commands (spec 40), the filter (41 R112), VOTE beyond the last
window, FALL, G_RISE and CS_OFF (41, 42), reset and refusal (70 R180, R181, 30 R75), the output ports (10 R37) and a bus
read (93 I12). -/

namespace Sys2Proof.Machine

/-- A command line that finds the block ready is accepted. -/
theorem State.command_of_ready {s : State} (h : s.cmdReady = true) (d : BitVec 1) : s.command d = (s.offer d).accept :=
  if_pos h

/-- A command line that finds the block not ready only puts its offer on the port. -/
theorem State.command_of_not_ready {s : State} (h : s.cmdReady = false) (d : BitVec 1) : s.command d = s.offer d :=
  if_neg (by simp [h])

/-- READ and SETUP are the command lines of the two command words. -/
theorem exec_decode_cmd (d : BitVec 1) (s : State) : exec (decode (.cmd d)) s = .next (s.command d) := by
  rcases bit_cases d with rfl | rfl <;> rfl

/-- VOTE as one equation, for every window index: what ACC takes, the count by unanimity, and on to FALL. -/
theorem exec_vote (s : State) : exec .vote s = .next { s with
    acc := setWindowBit s.acc s.i (maj3 s.s1 s.s2 s.s3)
    ncnt := if s.s1 = s.s2 ∧ s.s2 = s.s3 then s.ncnt else s.ncnt + 1#5
    phase := PhaseCode.fall } := by
  rw [← countNoisy_eq]
  rfl

/-- The only ways into G_RISE: WAIT_L after window 23, and G_WAIT_L with pulses left. -/
theorem Took.of_gRise {s b : State} (hb : Took s b) (hi : Safety.Inv s) (hp : b.phase = PhaseCode.gRise) :
    (s.phase = PhaseCode.waitL ∧ s.i = 23#5) ∨ (s.phase = PhaseCode.gWaitL ∧ s.g.toNat < s.gain.toNat) := by
  have hle := windowIndex_le hi
  cases hb with
  | waitLLast _ p c => exact .inl ⟨p, BitVec.eq_of_toNat_eq (hle.antisymm c)⟩
  | gWaitLMore _ p c => exact .inr ⟨p, c⟩
  | stutter _ p => simp [p] at hp
  | reset => simp [State.reset] at hp
  | _ => simp at hp

/-- The only way into CS_OFF: the last G_FALL, whose event is the falling edge. -/
theorem Took.of_csOff {s b : State} (hb : Took s b) (hp : b.phase = PhaseCode.csOff) :
    s.phase = PhaseCode.gFall ∧ Safety.newEvents s b = [.clkSet 0#1] := by
  cases hb with
  | gFallLast _ p => exact ⟨p, newEvents_of_trace rfl⟩
  | stutter _ p => simp [p] at hp
  | reset => simp [State.reset] at hp
  | _ => simp at hp

/-- `cmd_ready` as a port level. -/
theorem outputs_cmdReady_eq_one_iff (s : State) :
    s.outputs.cmdReady = 1#1 ↔ s.phase = PhaseCode.idle ∧ s.inp.rst = 0#1 := by
  rw [← State.cmdReady_iff]
  cases h : s.cmdReady <;> simp [State.outputs, h]

/-- `busy` as a port level. -/
theorem outputs_busy_eq_one_iff (s : State) : s.outputs.busy = 1#1 ↔ s.phase ≠ PhaseCode.idle := by
  rw [← State.busy_iff]
  cases h : s.busy <;> simp [State.outputs, h]

end Sys2Proof.Machine

namespace Sys2Proof

open Sys2Proof.Machine

/-- Settles O6: a ready block accepts the command line's own offer. -/
theorem readAndSetupAreAcceptedWhenReady : Obligations.ReadAndSetupAreAcceptedWhenReady := by
  intro s hp hr
  have hready : s.cmdReady = true := (State.cmdReady_iff s).mpr ⟨hp, hr⟩
  have hexec (d : BitVec 1) : exec (decode (.cmd d)) s = .next (s.offer d).accept := by
    rw [exec_decode_cmd, State.command_of_ready hready]
  exact ⟨hexec 0#1, hexec 1#1⟩

/-- Settles O7: a block that is not ready leaves the offer on the port. -/
theorem anUnacceptedCommandOnlyStaysOnOffer : Obligations.AnUnacceptedCommandOnlyStaysOnOffer := by
  intro s h
  have hready : s.cmdReady = false := by
    rw [Bool.eq_false_iff, ne_eq, State.cmdReady_iff]
    rintro ⟨hp, hr⟩
    rcases h with hp' | hr'
    · exact hp' hp
    · simp [hr] at hr'
  have hexec (d : BitVec 1) : exec (decode (.cmd d)) s = .next (s.offer d) := by
    rw [exec_decode_cmd, State.command_of_not_ready hready]
  exact ⟨hexec 0#1, hexec 1#1⟩

/-- Settles O9: the offered command's line offers what is on offer already, and both accept it. -/
theorem idleAcceptanceIsTheOfferedCommand : Obligations.IdleAcceptanceIsTheOfferedCommand := by
  intro s hp hr hc
  rw [exec_idle_of_offered hc, exec_decode_cmd, State.command_of_ready ((State.cmdReady_iff s).mpr ⟨hp, hr⟩),
    State.offer_of_offered hc]

/-- Settles O17: the eight rows of spec 95 T1. -/
theorem voteIsSymmetricAndAlwaysResolves : Obligations.VoteIsSymmetricAndAlwaysResolves := by
  intro a b c
  revert a b c
  decide

/-- Settles O19: whatever ACC takes, the rest of VOTE is as in every window. -/
theorem voteBeyondTheLastWindowOnlyLeavesAccFree : Obligations.VoteBeyondTheLastWindowOnlyLeavesAccFree :=
  fun s _ => ⟨_, exec_vote s⟩

/-- Settles O20: the equation of FALL, and R38 item 3. -/
theorem fallEndsTheHighTime : Obligations.FallEndsTheHighTime :=
  ⟨decode_fall, fun _ => rfl, fun _ hi hp => (clk_eq_one_iff hi).mpr (by simp [hp])⟩

/-- Settles O22: the equation of G_RISE, what the invariant says there, and the ways in. -/
theorem gRiseStartsAGainPulse : Obligations.GRiseStartsAGainPulse := by
  refine ⟨decode_gRise, fun s => rfl, fun s hi hp => ⟨?_, ?_⟩, fun s t hi h hp => ?_⟩
  · exact bit_eq_zero_of_ne_one (by simp [clk_eq_one_iff hi, hp])
  · exact pulseCount_lt_of_pulse hi (by simp [hp])
  · obtain ⟨b, hb, rfl, _⟩ := took_of_step h
    exact hb.of_gRise hi hp

/-- Settles O25: the equation of CS_OFF, what the invariant says there, and the one way in. -/
theorem csOffLeavesTheCriticalSection : Obligations.CsOffLeavesTheCriticalSection := by
  refine ⟨decode_csOff, fun s => rfl, fun s hi hp => ⟨?_, ?_, pulseCount_eq_gain hi (by simp [hp])⟩, fun s t h hp => ?_⟩
  · exact (cs_eq_one_iff hi).mpr (by simp [hp])
  · exact bit_eq_zero_of_ne_one (by simp [clk_eq_one_iff hi, hp])
  · obtain ⟨b, hb, rfl, _⟩ := took_of_step h
    exact hb.of_csOff hp

/-- Settles O30: the reset step's state, field by field; idle, it is ready as soon as `rst` is released. -/
theorem resetStepWritesEveryElement : Obligations.ResetStepWritesEveryElement := by
  intro s hr
  refine ⟨bit_eq_zero_of_ne_one fun h => ?_, s.resetStep.advance s, step_of_rst hr, rfl, rfl, rfl, rfl, rfl, rfl, rfl,
    rfl, rfl, rfl, rfl, rfl, rfl, rfl, rfl, rfl, rfl, rfl, rfl, rfl, rfl, fun h => ?_, rfl⟩
  · obtain ⟨_, hr'⟩ := (outputs_cmdReady_eq_one_iff s).mp h
    simp [hr] at hr'
  · exact (outputs_cmdReady_eq_one_iff _).mpr ⟨rfl, h⟩

/-- Settles O31: the launch state, field by field; `cmd_ready` alone depends on `rst`. -/
theorem launchStateHoldsTheResetValues : Obligations.LaunchStateHoldsTheResetValues := by
  refine ⟨rfl, rfl, rfl, rfl, rfl, rfl, rfl, rfl, rfl, rfl, rfl, rfl, rfl, rfl, rfl, rfl, rfl, rfl, fun p hr => ?_,
    fun p hr => bit_eq_zero_of_ne_one fun h => ?_⟩
  · simp [State.outputs, State.cmdReady, State.busy, State.reset, hr]
  · obtain ⟨_, hr'⟩ := (outputs_cmdReady_eq_one_iff _).mp h
    simp [hr] at hr'

/-- Settles O32: the gain check, the refusal out of reset, and the reset step that latches 0. -/
theorem anInvalidGainGetsNoSteps : Obligations.AnInvalidGainGetsNoSteps := by
  refine ⟨fun gain => by simp [gainWellFormed], fun s hr hg => step_of_invalid hr hg, fun s hr hzero => ?_⟩
  exact ⟨_, step_of_rst hr, hzero⟩

/-- Settles O34: every instruction is well formed and has an outcome, and the step is it with the environment's move. -/
theorem stepRunsTheFetchedInstruction : Obligations.StepRunsTheFetchedInstruction := by
  intro s hr hg
  obtain ⟨b, hb⟩ := exec_total (decode s.fetchCode) s
  exact ⟨rfl, b, hb, step_of_exec hr ((State.admitted_iff s).mp hg) hb⟩

/-- Settles O37: the two handshake ports as levels; the other ports are the registers themselves. -/
theorem outputPortsFollowTheState : Obligations.OutputPortsFollowTheState :=
  fun s => ⟨outputs_cmdReady_eq_one_iff s, outputs_busy_eq_one_iff s, rfl, rfl, rfl, rfl, rfl, rfl, rfl⟩

/-- Settles O38: the bus read goes by the status. -/
theorem aBusReadStopsOnTheBrokenStatus : Obligations.ABusReadStopsOnTheBrokenStatus :=
  fun _ => ⟨fun h => if_pos h, fun h => if_neg h⟩

end Sys2Proof
end
